-- ==== Sys2Proof/Word.lean ====
section
/-! DEFINITION. The word types of the machine. -/

namespace Sys2Proof

/-- A byte, the unit of addressing (00_scope.md R13). -/
abbrev Byte := BitVec 8

/-- An instruction word (30_encoding.md R90). -/
abbrev InstrWord := BitVec 32

/-- A value of the widest register, CSR or address of the family (46_srm64.md R270, R276, R277).
On SRM32 only the low 32 bits are ever non-zero. -/
abbrev Word64 := BitVec 64

/-- A register field: five bits naming one of 32 registers (10_state.md R20, 30_encoding.md R91). -/
abbrev RegNum := BitVec 5

/-- The 12-bit immediate of the formats DSI and SSI (30_encoding.md R96). -/
abbrev Imm12 := BitVec 12

/-- The 21-bit immediate of the format DI (30_encoding.md R96). -/
abbrev Imm21 := BitVec 21

/-- A CSR number, 0 to 4095 (10_state.md R31, 30_encoding.md R106). -/
abbrev CsrNum := BitVec 12

end Sys2Proof
end

