-- ==== Sys2Proof/Syntax.lean ====
section
/-! DEFINITION. The instructions: one constructor for each row of spec/opcode_table.json (30_encoding.md R100). -/

namespace Sys2Proof

/-- An instruction. The operands stand in the order of the assembler's text for the register and immediate forms
(44_pseudo_macro.md R201); a store and a conditional jump name `rs1`, `rs2` and the immediate. -/
inductive Instr where
  -- register arithmetic, opcode 0x00, format DSS (40_arithmetic.md)
  | add (rd rs1 rs2 : RegNum)
  | sub (rd rs1 rs2 : RegNum)
  | and (rd rs1 rs2 : RegNum)
  | or (rd rs1 rs2 : RegNum)
  | xor (rd rs1 rs2 : RegNum)
  | shr (rd rs1 rs2 : RegNum)
  | asr (rd rs1 rs2 : RegNum)
  | shl (rd rs1 rs2 : RegNum)
  | cch (rd rs1 rs2 : RegNum)
  | bch (rd rs1 rs2 : RegNum)
  -- immediate arithmetic, opcode 0x01, format DSI (41_arithmetic_imm.md)
  | addi (rd rs1 : RegNum) (imm : Imm12)
  | andi (rd rs1 : RegNum) (imm : Imm12)
  | ori (rd rs1 : RegNum) (imm : Imm12)
  | xori (rd rs1 : RegNum) (imm : Imm12)
  | shri (rd rs1 : RegNum) (imm : Imm12)
  | asri (rd rs1 : RegNum) (imm : Imm12)
  | shli (rd rs1 : RegNum) (imm : Imm12)
  | cchi (rd rs1 : RegNum) (imm : Imm12)
  | bchi (rd rs1 : RegNum) (imm : Imm12)
  -- opcode 0x02, format DI
  | lui (rd : RegNum) (imm : Imm21)
  -- stores, opcode 0x03, format SSI (42_load_store.md, 46_srm64.md)
  | stb (rs1 rs2 : RegNum) (imm : Imm12)
  | stw (rs1 rs2 : RegNum) (imm : Imm12)
  | std (rs1 rs2 : RegNum) (imm : Imm12)
  | stq (rs1 rs2 : RegNum) (imm : Imm12)
  -- loads, opcode 0x04, format DSI
  | ldb (rd rs1 : RegNum) (imm : Imm12)
  | ldw (rd rs1 : RegNum) (imm : Imm12)
  | ldd (rd rs1 : RegNum) (imm : Imm12)
  | ldq (rd rs1 : RegNum) (imm : Imm12)
  | ldsb (rd rs1 : RegNum) (imm : Imm12)
  | ldsw (rd rs1 : RegNum) (imm : Imm12)
  | ldsd (rd rs1 : RegNum) (imm : Imm12)
  -- jumps, opcodes 0x05 (DI), 0x06 (DSI), 0x07 (SSI) (43_jumps.md)
  | jal (rd : RegNum) (imm : Imm21)
  | jalr (rd rs1 : RegNum) (imm : Imm12)
  | jeq (rs1 rs2 : RegNum) (imm : Imm12)
  | jlt (rs1 rs2 : RegNum) (imm : Imm12)
  | jslt (rs1 rs2 : RegNum) (imm : Imm12)
  | jne (rs1 rs2 : RegNum) (imm : Imm12)
  | jge (rs1 rs2 : RegNum) (imm : Imm12)
  | jsge (rs1 rs2 : RegNum) (imm : Imm12)
  -- system, opcodes 0x08, 0x09 (DSS), 0x0A (DSI) (45_system.md)
  | syscall
  | sysret
  | csrw (rs1 : RegNum) (csr : CsrNum)
  | csrr (rd : RegNum) (csr : CsrNum)
  -- multiply and divide, opcode 0x0B, format DSS (48_muldiv.md)
  | mul (rd rs1 rs2 : RegNum)
  | smul (rd rs1 rs2 : RegNum)
  | mulh (rd rs1 rs2 : RegNum)
  | smulh (rd rs1 rs2 : RegNum)
  | div (rd rs1 rs2 : RegNum)
  | sdiv (rd rs1 rs2 : RegNum)
  | mod (rd rs1 rs2 : RegNum)
  | smod (rd rs1 rs2 : RegNum)
deriving DecidableEq, Repr

/-- The register fields an instruction uses, as `rd`, `rs1` or `rs2` (47_ext_h.md R301). -/
def Instr.regs : Instr → List RegNum
  | .add rd rs1 rs2 | .sub rd rs1 rs2 | .and rd rs1 rs2 | .or rd rs1 rs2 | .xor rd rs1 rs2
  | .shr rd rs1 rs2 | .asr rd rs1 rs2 | .shl rd rs1 rs2 | .cch rd rs1 rs2 | .bch rd rs1 rs2
  | .mul rd rs1 rs2 | .smul rd rs1 rs2 | .mulh rd rs1 rs2 | .smulh rd rs1 rs2
  | .div rd rs1 rs2 | .sdiv rd rs1 rs2 | .mod rd rs1 rs2 | .smod rd rs1 rs2 => [rd, rs1, rs2]
  | .addi rd rs1 _ | .andi rd rs1 _ | .ori rd rs1 _ | .xori rd rs1 _ | .shri rd rs1 _
  | .asri rd rs1 _ | .shli rd rs1 _ | .cchi rd rs1 _ | .bchi rd rs1 _
  | .ldb rd rs1 _ | .ldw rd rs1 _ | .ldd rd rs1 _ | .ldq rd rs1 _
  | .ldsb rd rs1 _ | .ldsw rd rs1 _ | .ldsd rd rs1 _ | .jalr rd rs1 _ => [rd, rs1]
  | .stb rs1 rs2 _ | .stw rs1 rs2 _ | .std rs1 rs2 _ | .stq rs1 rs2 _
  | .jeq rs1 rs2 _ | .jlt rs1 rs2 _ | .jslt rs1 rs2 _
  | .jne rs1 rs2 _ | .jge rs1 rs2 _ | .jsge rs1 rs2 _ => [rs1, rs2]
  | .lui rd _ | .jal rd _ | .csrr rd _ => [rd]
  | .csrw rs1 _ => [rs1]
  | .syscall | .sysret => []

/-- What a row of the opcode table needs of the configuration: its column "needs" (30_encoding.md R100, R112). -/
inductive Needs where
  | base
  | system
  | mulDiv
  | srm64
deriving DecidableEq, Repr

/-- The column "needs" of the instruction's row. -/
def Instr.needs : Instr → Needs
  | .syscall | .sysret | .csrw _ _ | .csrr _ _ => .system
  | .mul _ _ _ | .smul _ _ _ | .mulh _ _ _ | .smulh _ _ _
  | .div _ _ _ | .sdiv _ _ _ | .mod _ _ _ | .smod _ _ _ => .mulDiv
  | .stq _ _ _ | .ldq _ _ _ | .ldsd _ _ _ => .srm64
  | .add _ _ _ | .sub _ _ _ | .and _ _ _ | .or _ _ _ | .xor _ _ _
  | .shr _ _ _ | .asr _ _ _ | .shl _ _ _ | .cch _ _ _ | .bch _ _ _
  | .addi _ _ _ | .andi _ _ _ | .ori _ _ _ | .xori _ _ _ | .shri _ _ _
  | .asri _ _ _ | .shli _ _ _ | .cchi _ _ _ | .bchi _ _ _ | .lui _ _
  | .stb _ _ _ | .stw _ _ _ | .std _ _ _
  | .ldb _ _ _ | .ldw _ _ _ | .ldd _ _ _ | .ldsb _ _ _ | .ldsw _ _ _
  | .jal _ _ | .jalr _ _ _ | .jeq _ _ _ | .jlt _ _ _ | .jslt _ _ _
  | .jne _ _ _ | .jge _ _ _ | .jsge _ _ _ => .base

/-- The mnemonic of the instruction's row in spec/opcode_table.json. -/
def Instr.mnemonic : Instr → String
  | .add _ _ _ => "ADD"
  | .sub _ _ _ => "SUB"
  | .and _ _ _ => "AND"
  | .or _ _ _ => "OR"
  | .xor _ _ _ => "XOR"
  | .shr _ _ _ => "SHR"
  | .asr _ _ _ => "ASR"
  | .shl _ _ _ => "SHL"
  | .cch _ _ _ => "CCH"
  | .bch _ _ _ => "BCH"
  | .addi _ _ _ => "ADDI"
  | .andi _ _ _ => "ANDI"
  | .ori _ _ _ => "ORI"
  | .xori _ _ _ => "XORI"
  | .shri _ _ _ => "SHRI"
  | .asri _ _ _ => "ASRI"
  | .shli _ _ _ => "SHLI"
  | .cchi _ _ _ => "CCHI"
  | .bchi _ _ _ => "BCHI"
  | .lui _ _ => "LUI"
  | .stb _ _ _ => "STB"
  | .stw _ _ _ => "STW"
  | .std _ _ _ => "STD"
  | .stq _ _ _ => "STQ"
  | .ldb _ _ _ => "LDB"
  | .ldw _ _ _ => "LDW"
  | .ldd _ _ _ => "LDD"
  | .ldq _ _ _ => "LDQ"
  | .ldsb _ _ _ => "LDSB"
  | .ldsw _ _ _ => "LDSW"
  | .ldsd _ _ _ => "LDSD"
  | .jal _ _ => "JAL"
  | .jalr _ _ _ => "JALR"
  | .jeq _ _ _ => "JEQ"
  | .jlt _ _ _ => "JLT"
  | .jslt _ _ _ => "JSLT"
  | .jne _ _ _ => "JNE"
  | .jge _ _ _ => "JGE"
  | .jsge _ _ _ => "JSGE"
  | .syscall => "SYSCALL"
  | .sysret => "SYSRET"
  | .csrw _ _ => "CSRW"
  | .csrr _ _ => "CSRR"
  | .mul _ _ _ => "MUL"
  | .smul _ _ _ => "SMUL"
  | .mulh _ _ _ => "MULH"
  | .smulh _ _ _ => "SMULH"
  | .div _ _ _ => "DIV"
  | .sdiv _ _ _ => "SDIV"
  | .mod _ _ _ => "MOD"
  | .smod _ _ _ => "SMOD"

end Sys2Proof
end

