-- ==== Sys2Proof/Config.lean ====
section
/-! DEFINITION. The configuration record of 00_scope.md R8, the variant names of R2, and the free values: opaque
constants that stand for what the spec leaves open (`any`, 00_scope.md R11). -/

namespace Sys2Proof

/-- The register size of the variant (00_scope.md R2, R8: `XLEN`). -/
inductive Xlen where
  | x32
  | x64
deriving DecidableEq, Repr

/-- `XLEN` in bits. -/
def Xlen.bits : Xlen → Nat
  | .x32 => 32
  | .x64 => 64

/-- `SHIFT_OVER`: the result of a shift by the operating width or more (40_arithmetic.md R131).
`any` is the open parameter itself: a function of the operation and its operands of which nothing is known. -/
inductive ShiftOver where
  | full
  | masked
  | any
deriving DecidableEq, Repr

/-- `DIV_ZERO`: the results of DIV, SDIV, MOD and SMOD with divisor 0 (48_muldiv.md R319 (c)). -/
inductive DivZero where
  | onesAndDividend
  | zero
  | any
deriving DecidableEq, Repr

/-- `DIV_OVERFLOW`: the results of SDIV and SMOD for the most negative value divided by -1 (48_muldiv.md R319 (d)). -/
inductive DivOverflow where
  | wrap
  | any
deriving DecidableEq, Repr

/-- `Q0_UPPER`: on SRM64 with Q = 0, the upper 32 bits written with a 32-bit result (46_srm64.md R272). -/
inductive Q0Upper where
  | sext
  | zext
  | keep
  | any
deriving DecidableEq, Repr

/-- `IRADDR_EXT`: the return address an asynchronous trap saves (60_exceptions.md R347). -/
inductive IraddrExt where
  | completedPlus4
  | nextPc
  | nextPcPlus4
deriving DecidableEq, Repr

/-- `PCS_TIMER`: the process context switch timer (60_exceptions.md R350). `absent` and `countdown` are the spec's
named instantiations; `platform` is its interface left open: the environment's input says what the timer does
(DESIGN CHOICE, unsafe where two requests merge, log entry 13). -/
inductive PcsTimer where
  | absent
  | countdown
  | platform
deriving DecidableEq, Repr

/-- `CSR_FIELD`: where the CSR number sits in CSRW and CSRR (30_encoding.md R106). -/
inductive CsrField where
  | imm12
  | rs2field
deriving DecidableEq, Repr

/-- What `MEM_MAP` says of one byte address (20_memory.md R66). -/
inductive MemKind where
  | ram
  | rom
  | device (id : Nat)
  | absent
deriving DecidableEq, Repr

/-- A run of byte addresses of one kind. -/
structure Region where
  base : Nat
  size : Nat
  kind : MemKind
deriving DecidableEq, Repr

/-- `MEM_MAP` at one address: the first region that holds it; outside every region, `absent` (20_memory.md R66). -/
def memKindAt : List Region → Nat → MemKind
  | [], _ => .absent
  | r :: rest, a => if r.base ≤ a ∧ a < r.base + r.size then r.kind else memKindAt rest a

/-- The configuration record (00_scope.md R8). `ILEN`, `NCSR`, `RESET_IP` and `IFETCH_COHERENT` are fixed there and
are no fields; `NREGS` and `ALEN` follow from the fields. -/
structure Config where
  xlen : Xlen
  extS : Bool
  extM : Bool
  extH : Bool
  memMap : List Region
  shiftOver : ShiftOver
  divZero : DivZero
  divOverflow : DivOverflow
  q0Upper : Q0Upper
  iraddrExt : IraddrExt
  pcsTimer : PcsTimer
  htid : Word64
  csrField : CsrField
deriving DecidableEq, Repr

namespace Config

/-- `NREGS`: 16 with the register reduction extension, else 32 (47_ext_h.md R300). -/
def nregs (c : Config) : Nat := if c.extH then 16 else 32

/-- `ALEN`: the address width in bits (00_scope.md R8, 46_srm64.md R276). -/
def alen (c : Config) : Nat := c.xlen.bits

/-- A fetch can read this byte: it is ram or rom (20_memory.md R70). -/
def executable (c : Config) (a : Nat) : Bool :=
  match memKindAt c.memMap a with
  | .ram | .rom => true
  | .device _ | .absent => false

/-- The configurations the spec does not refuse (93_implementation_defined.md section 5): SRM64 needs the System
extension, since Q lives in a CSR (46_srm64.md R271), and there is executable memory at address 0
(20_memory.md R66). -/
def valid (c : Config) : Bool :=
  (c.xlen == .x32 || c.extS) &&
    c.executable 0 && c.executable 1 && c.executable 2 && c.executable 3

/-- The value kept of a 64-bit value by a register or CSR of `XLEN` bits: on SRM32 the low 32 bits, held with zeros
above (10_state.md R20, R32; DESIGN CHOICE, safe, log entry 18). -/
def fit (c : Config) (v : Word64) : Word64 :=
  match c.xlen with
  | .x32 => (v.setWidth 32).setWidth 64
  | .x64 => v

/-- All of the address space is ram (DESIGN CHOICE, unsafe, log entry 6: the platform's `MEM_MAP` is open). -/
def allRam : List Region := [⟨0, 2 ^ 64, .ram⟩]

/-- SRM64SM: the configuration in which every row of the opcode table exists, with every open parameter at the
default the spec gives it, or left open (00_scope.md R8; log entry 1). -/
def srm64sm : Config where
  xlen := .x64
  extS := true
  extM := true
  extH := false
  memMap := allRam
  shiftOver := .any
  divZero := .any
  divOverflow := .any
  q0Upper := .any
  iraddrExt := .completedPlus4
  pcsTimer := .absent
  htid := 0
  csrField := .imm12

/-- SRM32SM: the reference configuration of the spec (00_scope.md R3). -/
def srm32sm : Config := { srm64sm with xlen := .x32 }

/-! The free values. None has a body: no proof can know one of their values. -/

end Config

/-- The shift operations, as `SHIFT_OVER` names them (40_arithmetic.md R131). -/
inductive ShiftOp where
  | shr
  | asr
  | shl
deriving DecidableEq, Repr

/-- The division operations, as `DIV_ZERO` names them (48_muldiv.md R319 (c)). -/
inductive DivOp where
  | div
  | sdiv
  | mod
  | smod
deriving DecidableEq, Repr

/-- FREE VALUE (log entry 8): `SHIFT_OVER` where the configuration picks no candidate: a function of the operation,
the width, the value and the amount (40_arithmetic.md R131). -/
opaque Config.freeShift (op : ShiftOp) (w : Nat) (a : BitVec w) (n : Nat) : BitVec w

/-- FREE VALUE (log entry 9): `DIV_ZERO` where the configuration picks no candidate: a function of the operation, the
width and the dividend (48_muldiv.md R319 (c)). -/
opaque Config.freeDivZero (op : DivOp) (w : Nat) (a : BitVec w) : BitVec w

/-- FREE VALUE (log entry 9): `DIV_OVERFLOW` where the configuration picks no candidate: a function of the operation
and the width (48_muldiv.md R319 (d)). -/
opaque Config.freeDivOverflow (op : DivOp) (w : Nat) : BitVec w

/-- FREE VALUE (log entry 10): `Q0_UPPER` where the configuration picks no candidate: it may depend on the instruction,
on the result and on the old register (46_srm64.md R272), and `any` is drawn fresh (00_scope.md R11): `draw` counts the
writes, so that two equal ones need not agree. -/
opaque Config.freeUpper (i : Instr) (draw : Nat) (result : BitVec 32) (old : Word64) : BitVec 32

/-- FREE VALUE (log entry 11): what a device byte answers a read (20_memory.md R67); `draw` counts the reads. -/
opaque Config.freeDeviceByte (draw : Nat) (addr : Nat) : Byte

/-! The variant names (00_scope.md R2). -/

/-- The extension letters of a variant name (00_scope.md R2). -/
inductive Extension where
  | S
  | M
  | A
  | H
  | L
  | F
  | D
  | Zmo
  | Zvm
deriving DecidableEq, Repr

/-- The letters as the name spells them. -/
def Extension.letters : Extension → String
  | .S => "S"
  | .M => "M"
  | .A => "A"
  | .H => "H"
  | .L => "L"
  | .F => "F"
  | .D => "D"
  | .Zmo => "Zmo"
  | .Zvm => "Zvm"

/-- The extensions marked "Work in progress": named and not defined (00_scope.md R6). -/
def Extension.workInProgress : Extension → Bool
  | .A | .L | .F | .D | .Zmo | .Zvm => true
  | .S | .M | .H => false

/-- A variant: the register size and the extensions (00_scope.md R2). -/
structure Variant where
  xlen : Xlen
  exts : List Extension
deriving DecidableEq, Repr

/-- The name of a variant: "SRM", the register size, the extensions' letters (00_scope.md R2). -/
def Variant.name (v : Variant) : String :=
  "SRM" ++ (match v.xlen with | .x32 => "32" | .x64 => "64") ++ String.join (v.exts.map Extension.letters)

/-- The configuration a variant stands for, the other parameters taken from `base`; none where the spec refuses it
(93_implementation_defined.md section 5). -/
def Variant.config? (v : Variant) (base : Config) : Option Config :=
  let c : Config :=
    { base with
      xlen := v.xlen
      extS := v.exts.contains .S
      extM := v.exts.contains .M
      extH := v.exts.contains .H }
  if v.exts.any Extension.workInProgress || !c.valid then none else some c

end Sys2Proof
end

