-- ==== Sys2Proof/WellFormed.lean ====
section
/-! DEFINITION. Which instructions exist in a configuration (30_encoding.md R112, 47_ext_h.md R301). -/

namespace Sys2Proof

/-- The extension an instruction's row needs is present (30_encoding.md R112). -/
def Needs.met (n : Needs) (c : Config) : Bool :=
  match n with
  | .base => true
  | .system => c.extS
  | .mulDiv => c.extM
  | .srm64 => c.xlen == .x64

/-- Every register field the instruction uses names a register that exists (47_ext_h.md R301). -/
def Instr.regsExist (i : Instr) (c : Config) : Bool :=
  i.regs.all fun r => decide (r.toNat < c.nregs)

/-- The CSR number has an encoding: 12 bits, or 5 bits under `CSR_FIELD = rs2field` (30_encoding.md R106). -/
def Instr.csrEncodable (i : Instr) (f : CsrField) : Bool :=
  match i, f with
  | .csrw _ n, .rs2field | .csrr _ n, .rs2field => decide (n.toNat < 32)
  | _, _ => true

/-- The instruction is one of the configuration's: some word of it decodes to it (30_encoding.md R108, R112). -/
def Instr.wellFormed (i : Instr) (c : Config) : Bool :=
  i.needs.met c && i.regsExist c && i.csrEncodable c.csrField

end Sys2Proof
end

