-- ==== Sys2Proof/Decode.lean ====
section
/-! DEFINITION. The decoder, total on any word and any bytes, and the encoder (30_encoding.md). -/

namespace Sys2Proof

/-! The fields of an instruction word (30_encoding.md R91). -/

/-- `opcode`, bits 31:26. -/
def fOpcode (iw : InstrWord) : BitVec 6 := iw.extractLsb' 26 6

/-- `rd`, bits 25:21. -/
def fRd (iw : InstrWord) : RegNum := iw.extractLsb' 21 5

/-- `rs1`, bits 20:16. -/
def fRs1 (iw : InstrWord) : RegNum := iw.extractLsb' 16 5

/-- `fn4`, bits 15:12. -/
def fFn4 (iw : InstrWord) : BitVec 4 := iw.extractLsb' 12 4

/-- `rs2`, bits 11:7. -/
def fRs2 (iw : InstrWord) : RegNum := iw.extractLsb' 7 5

/-- `fn7`, bits 6:0. -/
def fFn7 (iw : InstrWord) : BitVec 7 := iw.extractLsb' 0 7

/-- `imm[20:0]` of the format DI, bits 20:0. -/
def fImmDi (iw : InstrWord) : Imm21 := iw.extractLsb' 0 21

/-- `imm[11:0]` of the format DSI, bits 11:0. -/
def fImmDsi (iw : InstrWord) : Imm12 := iw.extractLsb' 0 12

/-- `imm[11:7]` and `imm[6:0]` of the format SSI, bits 25:21 and 6:0 (30_encoding.md R95, R96). -/
def fImmSsi (iw : InstrWord) : Imm12 := iw.extractLsb' 21 5 ++ iw.extractLsb' 0 7

/-- Why a word is no instruction of the configuration: the cases of 30_encoding.md R108, and too few bytes. -/
inductive DecodeError where
  /-- Fewer than the four bytes of an instruction (R90). -/
  | tooShort
  /-- `opcode` 0x0C to 0x3F: R108 (a). -/
  | unassignedOpcode
  /-- An unassigned `fn4` of an assigned opcode: R108 (b) to (j). -/
  | reservedFn4
  /-- `fn7` not 0 in a DSS-format word: R108 (h), (k). -/
  | nonzeroFn7
  /-- A register field the instruction does not use is not 0: R108 (h), (i), R99. -/
  | nonzeroUnusedField
  /-- The row needs an extension the configuration lacks: R108 (d), (e), (h), (j), R112. -/
  | absentExtension
  /-- With H, a used register field names `r16` to `r31`: R108 (l), 47_ext_h.md R301. -/
  | removedRegister
deriving DecidableEq, Repr

/-! One decoder for each opcode's family (30_encoding.md R98, R100). -/

/-- Opcode 0x00, register arithmetic, DSS. -/
def decodeArith (iw : InstrWord) : Except DecodeError Instr :=
  let rd := fRd iw
  let rs1 := fRs1 iw
  let rs2 := fRs2 iw
  if fFn7 iw ≠ 0 then .error .nonzeroFn7
  else
    match fFn4 iw with
    | 0x0#4 => .ok (.add rd rs1 rs2)
    | 0x1#4 => .ok (.sub rd rs1 rs2)
    | 0x2#4 => .ok (.and rd rs1 rs2)
    | 0x3#4 => .ok (.or rd rs1 rs2)
    | 0x4#4 => .ok (.xor rd rs1 rs2)
    | 0x5#4 => .ok (.shr rd rs1 rs2)
    | 0x6#4 => .ok (.asr rd rs1 rs2)
    | 0x7#4 => .ok (.shl rd rs1 rs2)
    | 0x8#4 => .ok (.cch rd rs1 rs2)
    | 0x9#4 => .ok (.bch rd rs1 rs2)
    | _ => .error .reservedFn4

/-- Opcode 0x01, immediate arithmetic, DSI. -/
def decodeArithImm (iw : InstrWord) : Except DecodeError Instr :=
  let rd := fRd iw
  let rs1 := fRs1 iw
  let imm := fImmDsi iw
  match fFn4 iw with
  | 0x0#4 => .ok (.addi rd rs1 imm)
  | 0x2#4 => .ok (.andi rd rs1 imm)
  | 0x3#4 => .ok (.ori rd rs1 imm)
  | 0x4#4 => .ok (.xori rd rs1 imm)
  | 0x5#4 => .ok (.shri rd rs1 imm)
  | 0x6#4 => .ok (.asri rd rs1 imm)
  | 0x7#4 => .ok (.shli rd rs1 imm)
  | 0x8#4 => .ok (.cchi rd rs1 imm)
  | 0x9#4 => .ok (.bchi rd rs1 imm)
  | _ => .error .reservedFn4

/-- Opcode 0x03, stores, SSI. -/
def decodeStore (iw : InstrWord) : Except DecodeError Instr :=
  let rs1 := fRs1 iw
  let rs2 := fRs2 iw
  let imm := fImmSsi iw
  match fFn4 iw with
  | 0x0#4 => .ok (.stb rs1 rs2 imm)
  | 0x1#4 => .ok (.stw rs1 rs2 imm)
  | 0x2#4 => .ok (.std rs1 rs2 imm)
  | 0x3#4 => .ok (.stq rs1 rs2 imm)
  | _ => .error .reservedFn4

/-- Opcode 0x04, loads, DSI. -/
def decodeLoad (iw : InstrWord) : Except DecodeError Instr :=
  let rd := fRd iw
  let rs1 := fRs1 iw
  let imm := fImmDsi iw
  match fFn4 iw with
  | 0x0#4 => .ok (.ldb rd rs1 imm)
  | 0x1#4 => .ok (.ldw rd rs1 imm)
  | 0x2#4 => .ok (.ldd rd rs1 imm)
  | 0x3#4 => .ok (.ldq rd rs1 imm)
  | 0x4#4 => .ok (.ldsb rd rs1 imm)
  | 0x5#4 => .ok (.ldsw rd rs1 imm)
  | 0x6#4 => .ok (.ldsd rd rs1 imm)
  | _ => .error .reservedFn4

/-- Opcode 0x06, JALR, DSI. -/
def decodeJalr (iw : InstrWord) : Except DecodeError Instr :=
  match fFn4 iw with
  | 0x0#4 => .ok (.jalr (fRd iw) (fRs1 iw) (fImmDsi iw))
  | _ => .error .reservedFn4

/-- Opcode 0x07, conditional jumps, SSI. -/
def decodeCondJump (iw : InstrWord) : Except DecodeError Instr :=
  let rs1 := fRs1 iw
  let rs2 := fRs2 iw
  let imm := fImmSsi iw
  match fFn4 iw with
  | 0x0#4 => .ok (.jeq rs1 rs2 imm)
  | 0x1#4 => .ok (.jlt rs1 rs2 imm)
  | 0x2#4 => .ok (.jslt rs1 rs2 imm)
  | 0x4#4 => .ok (.jne rs1 rs2 imm)
  | 0x5#4 => .ok (.jge rs1 rs2 imm)
  | 0x6#4 => .ok (.jsge rs1 rs2 imm)
  | _ => .error .reservedFn4

/-- Opcodes 0x08 and 0x09, SYSCALL and SYSRET, DSS with every other field 0 (30_encoding.md R99). -/
def decodeSysOp (i : Instr) (iw : InstrWord) : Except DecodeError Instr :=
  if fFn4 iw ≠ 0 then .error .reservedFn4
  else if fFn7 iw ≠ 0 then .error .nonzeroFn7
  else if fRd iw ≠ 0 ∨ fRs1 iw ≠ 0 ∨ fRs2 iw ≠ 0 then .error .nonzeroUnusedField
  else .ok i

/-- The CSR number of opcode 0x0A: `iw[11:0]`, or `iw[11:7]` with `fn7 = 0` (30_encoding.md R106). -/
def decodeCsrNum (f : CsrField) (iw : InstrWord) : Except DecodeError CsrNum :=
  match f with
  | .imm12 => .ok (fImmDsi iw)
  | .rs2field => if fFn7 iw ≠ 0 then .error .nonzeroFn7 else .ok ((fRs2 iw).setWidth 12)

/-- Opcode 0x0A, CSR access (30_encoding.md R106). -/
def decodeCsr (f : CsrField) (iw : InstrWord) : Except DecodeError Instr :=
  match decodeCsrNum f iw with
  | .error e => .error e
  | .ok n =>
    match fFn4 iw with
    | 0x0#4 => if fRd iw ≠ 0 then .error .nonzeroUnusedField else .ok (.csrw (fRs1 iw) n)
    | 0x1#4 => if fRs1 iw ≠ 0 then .error .nonzeroUnusedField else .ok (.csrr (fRd iw) n)
    | _ => .error .reservedFn4

/-- Opcode 0x0B, multiply and divide, DSS. -/
def decodeMulDiv (iw : InstrWord) : Except DecodeError Instr :=
  let rd := fRd iw
  let rs1 := fRs1 iw
  let rs2 := fRs2 iw
  if fFn7 iw ≠ 0 then .error .nonzeroFn7
  else
    match fFn4 iw with
    | 0x0#4 => .ok (.mul rd rs1 rs2)
    | 0x1#4 => .ok (.smul rd rs1 rs2)
    | 0x2#4 => .ok (.mulh rd rs1 rs2)
    | 0x3#4 => .ok (.smulh rd rs1 rs2)
    | 0x4#4 => .ok (.div rd rs1 rs2)
    | 0x5#4 => .ok (.sdiv rd rs1 rs2)
    | 0x6#4 => .ok (.mod rd rs1 rs2)
    | 0x7#4 => .ok (.smod rd rs1 rs2)
    | _ => .error .reservedFn4

/-- The opcode map, without regard to the extensions present (30_encoding.md R98, R101). -/
def rawDecode (f : CsrField) (iw : InstrWord) : Except DecodeError Instr :=
  match fOpcode iw with
  | 0x00#6 => decodeArith iw
  | 0x01#6 => decodeArithImm iw
  | 0x02#6 => .ok (.lui (fRd iw) (fImmDi iw))
  | 0x03#6 => decodeStore iw
  | 0x04#6 => decodeLoad iw
  | 0x05#6 => .ok (.jal (fRd iw) (fImmDi iw))
  | 0x06#6 => decodeJalr iw
  | 0x07#6 => decodeCondJump iw
  | 0x08#6 => decodeSysOp .syscall iw
  | 0x09#6 => decodeSysOp .sysret iw
  | 0x0A#6 => decodeCsr f iw
  | 0x0B#6 => decodeMulDiv iw
  | _ => .error .unassignedOpcode

/-- The instruction a word is in a configuration (30_encoding.md R98, R108, R112; 47_ext_h.md R301). -/
def decode (c : Config) (iw : InstrWord) : Except DecodeError Instr :=
  match rawDecode c.csrField iw with
  | .error e => .error e
  | .ok i =>
    if !i.needs.met c then .error .absentExtension
    else if !i.regsExist c then .error .removedRegister
    else .ok i

/-! The byte order (20_memory.md R60, R62). -/

/-- The number that bytes in address order stand for: big-endian, the first the most significant (20_memory.md R60). -/
def beVal (bytes : List Byte) : Nat :=
  bytes.foldl (fun acc b => acc * 256 + b.toNat) 0

/-- Byte `k` of the `n` bytes of `v` in address order: bits `8(n-k)-1` down to `8(n-k-1)` (00_scope.md R11). -/
def beByte (n : Nat) (v : BitVec (8 * n)) (k : Nat) : Byte :=
  v.extractLsb' (8 * (n - k - 1)) 8

/-- The `n` bytes of `v` in address order (20_memory.md R60). -/
def beBytes (n : Nat) (v : BitVec (8 * n)) : List Byte :=
  (List.range n).map (beByte n v)

/-- The instruction at the front of a list of bytes in address order, and the bytes after it
(30_encoding.md R90, R111; 20_memory.md R62). -/
def decodeBytes (c : Config) : List Byte → Except DecodeError (Instr × List Byte)
  | b0 :: b1 :: b2 :: b3 :: rest =>
    match decode c (b0 ++ b1 ++ b2 ++ b3) with
    | .ok i => .ok (i, rest)
    | .error e => .error e
  | _ => .error .tooShort

/-- The instruction the decoder reads from an instruction whose bits are `w`: its bytes are laid out big-endian and
decoded in the configuration of `State.reset`, SRM64SM (log entry 1). -/
def decodeTableWord (nbits w : Nat) : Option Instr :=
  match decodeBytes .srm64sm (beBytes 4 (BitVec.ofNat 32 (w % 2 ^ nbits))) with
  | .ok (i, _) => some i
  | .error _ => none

/-! The encoder, written from the formats and the opcode map (30_encoding.md R92 to R95, R100). -/

/-- Format DI (R92). -/
def encDi (op : BitVec 6) (rd : RegNum) (imm : Imm21) : InstrWord :=
  op ++ rd ++ imm

/-- Format DSS (R93). -/
def encDss (op : BitVec 6) (rd rs1 : RegNum) (fn4 : BitVec 4) (rs2 : RegNum) (fn7 : BitVec 7) : InstrWord :=
  op ++ rd ++ rs1 ++ fn4 ++ rs2 ++ fn7

/-- Format DSI (R94). -/
def encDsi (op : BitVec 6) (rd rs1 : RegNum) (fn4 : BitVec 4) (imm : Imm12) : InstrWord :=
  op ++ rd ++ rs1 ++ fn4 ++ imm

/-- Format SSI (R95): the immediate is split. -/
def encSsi (op : BitVec 6) (rs1 : RegNum) (fn4 : BitVec 4) (rs2 : RegNum) (imm : Imm12) : InstrWord :=
  op ++ imm.extractLsb' 7 5 ++ rs1 ++ fn4 ++ rs2 ++ imm.extractLsb' 0 7

/-- CSRW and CSRR under either reading of where the CSR number sits (30_encoding.md R106). -/
def encCsr (f : CsrField) (rd rs1 : RegNum) (fn4 : BitVec 4) (n : CsrNum) : InstrWord :=
  match f with
  | .imm12 => encDsi 0x0A rd rs1 fn4 n
  | .rs2field => encDss 0x0A rd rs1 fn4 (n.setWidth 5) 0

/-- The word of an instruction, every unused field 0 (30_encoding.md R99, R100). -/
def encode (f : CsrField) : Instr → InstrWord
  | .add rd rs1 rs2 => encDss 0x00 rd rs1 0x0 rs2 0
  | .sub rd rs1 rs2 => encDss 0x00 rd rs1 0x1 rs2 0
  | .and rd rs1 rs2 => encDss 0x00 rd rs1 0x2 rs2 0
  | .or rd rs1 rs2 => encDss 0x00 rd rs1 0x3 rs2 0
  | .xor rd rs1 rs2 => encDss 0x00 rd rs1 0x4 rs2 0
  | .shr rd rs1 rs2 => encDss 0x00 rd rs1 0x5 rs2 0
  | .asr rd rs1 rs2 => encDss 0x00 rd rs1 0x6 rs2 0
  | .shl rd rs1 rs2 => encDss 0x00 rd rs1 0x7 rs2 0
  | .cch rd rs1 rs2 => encDss 0x00 rd rs1 0x8 rs2 0
  | .bch rd rs1 rs2 => encDss 0x00 rd rs1 0x9 rs2 0
  | .addi rd rs1 imm => encDsi 0x01 rd rs1 0x0 imm
  | .andi rd rs1 imm => encDsi 0x01 rd rs1 0x2 imm
  | .ori rd rs1 imm => encDsi 0x01 rd rs1 0x3 imm
  | .xori rd rs1 imm => encDsi 0x01 rd rs1 0x4 imm
  | .shri rd rs1 imm => encDsi 0x01 rd rs1 0x5 imm
  | .asri rd rs1 imm => encDsi 0x01 rd rs1 0x6 imm
  | .shli rd rs1 imm => encDsi 0x01 rd rs1 0x7 imm
  | .cchi rd rs1 imm => encDsi 0x01 rd rs1 0x8 imm
  | .bchi rd rs1 imm => encDsi 0x01 rd rs1 0x9 imm
  | .lui rd imm => encDi 0x02 rd imm
  | .stb rs1 rs2 imm => encSsi 0x03 rs1 0x0 rs2 imm
  | .stw rs1 rs2 imm => encSsi 0x03 rs1 0x1 rs2 imm
  | .std rs1 rs2 imm => encSsi 0x03 rs1 0x2 rs2 imm
  | .stq rs1 rs2 imm => encSsi 0x03 rs1 0x3 rs2 imm
  | .ldb rd rs1 imm => encDsi 0x04 rd rs1 0x0 imm
  | .ldw rd rs1 imm => encDsi 0x04 rd rs1 0x1 imm
  | .ldd rd rs1 imm => encDsi 0x04 rd rs1 0x2 imm
  | .ldq rd rs1 imm => encDsi 0x04 rd rs1 0x3 imm
  | .ldsb rd rs1 imm => encDsi 0x04 rd rs1 0x4 imm
  | .ldsw rd rs1 imm => encDsi 0x04 rd rs1 0x5 imm
  | .ldsd rd rs1 imm => encDsi 0x04 rd rs1 0x6 imm
  | .jal rd imm => encDi 0x05 rd imm
  | .jalr rd rs1 imm => encDsi 0x06 rd rs1 0x0 imm
  | .jeq rs1 rs2 imm => encSsi 0x07 rs1 0x0 rs2 imm
  | .jlt rs1 rs2 imm => encSsi 0x07 rs1 0x1 rs2 imm
  | .jslt rs1 rs2 imm => encSsi 0x07 rs1 0x2 rs2 imm
  | .jne rs1 rs2 imm => encSsi 0x07 rs1 0x4 rs2 imm
  | .jge rs1 rs2 imm => encSsi 0x07 rs1 0x5 rs2 imm
  | .jsge rs1 rs2 imm => encSsi 0x07 rs1 0x6 rs2 imm
  | .syscall => encDss 0x08 0 0 0x0 0 0
  | .sysret => encDss 0x09 0 0 0x0 0 0
  | .csrw rs1 n => encCsr f 0 rs1 0x0 n
  | .csrr rd n => encCsr f rd 0 0x1 n
  | .mul rd rs1 rs2 => encDss 0x0B rd rs1 0x0 rs2 0
  | .smul rd rs1 rs2 => encDss 0x0B rd rs1 0x1 rs2 0
  | .mulh rd rs1 rs2 => encDss 0x0B rd rs1 0x2 rs2 0
  | .smulh rd rs1 rs2 => encDss 0x0B rd rs1 0x3 rs2 0
  | .div rd rs1 rs2 => encDss 0x0B rd rs1 0x4 rs2 0
  | .sdiv rd rs1 rs2 => encDss 0x0B rd rs1 0x5 rs2 0
  | .mod rd rs1 rs2 => encDss 0x0B rd rs1 0x6 rs2 0
  | .smod rd rs1 rs2 => encDss 0x0B rd rs1 0x7 rs2 0

end Sys2Proof
end

