-- ==== Sys2Proof/Machine/State.lean ====
section
/-! DEFINITION. The state of the machine as plain data, what a step may stop with, and the state after reset
(10_state.md, 60_exceptions.md R346, R350, R363, 93_implementation_defined.md section 2). -/

namespace Sys2Proof.Machine

/-- The reasons a step has no successor: the closed list of `ModelFault` reasons (93_implementation_defined.md
section 2). None is a trap; the program cannot see one. All are safe: the model stops where the source defines nothing. -/
inductive Fault where
  /-- Raised by `step` when it starts with `pc[1:0]` not 0 (10_state.md R28, 20_memory.md R64). Safe: hardware may
  round down. -/
  | misalignedFetch
  /-- Raised by the fetch, the loads and the stores on a byte that `MEM_MAP` marks absent, by a store to rom and by a
  fetch from a device (20_memory.md R66, R70; 42_load_store.md R170). Safe. -/
  | unmappedAccess
  /-- Raised by `step` when the fetched word is no instruction of the configuration (30_encoding.md R99, R108, R112;
  47_ext_h.md R301). Safe. -/
  | reservedEncoding
  /-- Raised by CSRR and CSRW in Kernel mode for a CSR number of 11 or above (10_state.md R42). Safe. -/
  | reservedCsr
  /-- Raised by CSRW in Kernel mode for a reserved bit of `msr` or a reserved value of `pvg`, and by SYSRET for a
  reserved value in `spvg` (10_state.md R33, R34; 45_system.md R253, R254). Safe. -/
  | reservedCsrValue
  /-- Raised by CSRW in Kernel mode for `htid` (10_state.md R41; 45_system.md R254). Safe. -/
  | htidWrite
  /-- Raised by SYSRET in User mode (45_system.md R253). Safe. -/
  | sysretInUserMode
deriving DecidableEq, Repr

/-- The reasons a step is refused by the model itself. -/
inductive Refusal where
  /-- An instruction without a meaning; raised by no arm of this model. Safe. -/
  | notModelled (mnemonic : String)
  /-- Raised by `step` for a configuration the spec refuses before the model starts (93_implementation_defined.md
  section 5; 46_srm64.md R271). Safe. -/
  | invalidConfiguration
deriving DecidableEq, Repr

/-- One general register of 64 bits, held as its upper and lower half: with Q = 0 only the lower half takes part in
an operation and the upper half may be a free value (46_srm64.md R270, R272; log entry 17). -/
structure Reg where
  hi : BitVec 32
  lo : BitVec 32
deriving DecidableEq, Repr

/-- The register's value. -/
def Reg.value (r : Reg) : Word64 := r.hi ++ r.lo

/-- Memory: the listed bytes by address, in the canonical form `Memory.wf` (10_state.md R44). -/
abbrev Memory := List Host.Cell

/-- One device byte of an access handed to the platform (20_memory.md R67). -/
structure DeviceByte where
  device : Nat
  addr : Nat
  value : Byte
deriving DecidableEq, Repr

/-- One access that touched device bytes, handed to the platform as one event (20_memory.md R67). -/
structure DeviceEvent where
  isWrite : Bool
  addr : Nat
  size : Nat
  bytes : List DeviceByte
deriving DecidableEq, Repr

/-- What the environment does to the external interrupt request (60_exceptions.md R346, R363 (6)). -/
inductive IrqChange where
  | keep
  | raise (cause : Word64)
  | withdraw
deriving DecidableEq, Repr

/-- What the environment does during one step (60_exceptions.md R363): `timer` and `timerRequest` are the timer's
part in (5) where `PCS_TIMER` is the platform's (R350); `irq` and `pokes` are (6). -/
structure EnvInput where
  timer : Option Word64
  timerRequest : Bool
  irq : IrqChange
  pokes : List Host.Cell
deriving DecidableEq, Repr

/-- The state of the machine. -/
structure State where
  /-- The configuration record (00_scope.md R8); no step changes it (log entry 1). -/
  cfg : Config
  /-- `x[0]` to `x[31]` (10_state.md R20). -/
  regs : Vector Reg 32
  /-- The instruction pointer `IP` (10_state.md R26). -/
  pc : Word64
  /-- `csr0`: bit 0 EI, bit 1 Q (10_state.md R33). -/
  msr : Word64
  /-- `csr1`: the privilege mode, 0 User, 2 Kernel (10_state.md R34). -/
  pvg : Word64
  /-- `csr2`: the saved privilege mode (10_state.md R35). -/
  spvg : Word64
  /-- `csr3`: the external interrupt vector address (10_state.md R36). -/
  eivba : Word64
  /-- `csr4`: the external interrupt cause (10_state.md R37). -/
  eic : Word64
  /-- `csr5`: the system call vector address (10_state.md R38). -/
  scvaddr : Word64
  /-- `csr6`: the interrupt return address (10_state.md R39). -/
  iraddr : Word64
  /-- `csr7`: the process context switch interrupt address (10_state.md R40). -/
  pcsaddr : Word64
  /-- `csr8`: the process context switch timer reset value (10_state.md R40). -/
  pcstrv : Word64
  /-- `csr9`: the process context switch timer (10_state.md R40). -/
  pcst : Word64
  /-- `csr10`: the hardware thread ID (10_state.md R41). -/
  htid : Word64
  /-- The bytes of memory (10_state.md R44). -/
  mem : Memory
  /-- The pending external interrupt request and its cause, `EXT_IRQ` (60_exceptions.md R346). -/
  irq : Option Word64
  /-- The timer's request that is still due (60_exceptions.md R350, R351 (c)); there is at most one (log entry 13). -/
  timerDue : Bool
  /-- The device accesses handed to the platform, the oldest first (20_memory.md R67). -/
  events : List DeviceEvent
  /-- What the environment does in the steps to come, the next one first (60_exceptions.md R363). -/
  inputs : List EnvInput
  /-- The model's own: how many free values have been drawn (log entry 10). -/
  draws : Nat
deriving DecidableEq, Repr

/-- The state after reset in a configuration (10_state.md R46): the source states `pc` and `x[0]`; the spec decides
`msr`, `pvg` and `htid`; the rest is DESIGN CHOICE (log entries 2, 3, 5, 11, 13, 14). -/
def State.resetFor (c : Config) : State where
  cfg := c
  regs := Vector.replicate 32 ⟨0, 0⟩
  pc := 0
  msr := 0
  pvg := 2
  spvg := 0
  eivba := 0
  eic := 0
  scvaddr := 0
  iraddr := 0
  pcsaddr := 0
  pcstrv := 0
  pcst := 0
  htid := c.fit c.htid
  mem := []
  irq := none
  timerDue := false
  events := []
  inputs := []
  draws := 0

/-- The machine right after reset, in the configuration SRM64SM (10_state.md R46; log entry 1). -/
def State.reset : State := State.resetFor .srm64sm

end Sys2Proof.Machine
end

