-- ==== Sys2Proof/Machine/Ops.lean ====
section
/-! DEFINITION. The shared operations: the operating width, registers, the instruction pointer, CSRs, memory, trap
entry and return. -/

namespace Sys2Proof.Machine

/-! ## The operating width (46_srm64.md R271) -/

/-- The Q flag, `msr` bit 1 (10_state.md R33). -/
def State.q (s : State) : Bool := s.msr.getLsbD 1

/-- `W`: 32 on SRM32; on SRM64 64 when Q is 1 and 32 when it is 0 (46_srm64.md R271). -/
def State.opWidth (s : State) : Nat :=
  match s.cfg.xlen with
  | .x32 => 32
  | .x64 => if s.q then 64 else 32

/-- A result is narrower than a register: SRM64 with Q = 0 (46_srm64.md R272). -/
def State.narrow (s : State) : Bool :=
  match s.cfg.xlen with
  | .x32 => false
  | .x64 => !s.q

/-! ## General registers (10_state.md R20, R21) -/

/-- `x[r]`, all `XLEN` bits; `x[0]` reads 0. -/
def State.reg (s : State) (r : RegNum) : Word64 :=
  if r = 0 then 0 else (s.regs[r.toNat]'r.isLt).value

/-- The low 32 bits of `x[r]`. -/
def State.regLo (s : State) (r : RegNum) : BitVec 32 :=
  if r = 0 then 0 else (s.regs[r.toNat]'r.isLt).lo

/-- `x[rd]` receives the two halves; a write to `x[0]` is discarded (10_state.md R21). -/
def State.setHalves (s : State) (rd : RegNum) (hi lo : BitVec 32) : State :=
  if rd = 0 then s else { s with regs := s.regs.set rd.toNat ⟨hi, lo⟩ rd.isLt }

/-- `x[rd] <- v` at `XLEN` bits: on SRM32 the low 32 bits (log entry 18). -/
def State.setReg (s : State) (rd : RegNum) (v : Word64) : State :=
  match s.cfg.xlen with
  | .x32 => s.setHalves rd 0 (v.setWidth 32)
  | .x64 => s.setHalves rd (v.extractLsb' 32 32) (v.setWidth 32)

/-- `Q0_UPPER`: the upper half that the instruction `i` writes with its 32-bit result `r` over the register's value
`old` (46_srm64.md R272). -/
def State.upperHalf (s : State) (i : Instr) (old : Word64) (r : BitVec 32) : BitVec 32 :=
  match s.cfg.q0Upper with
  | .sext => if r.msb then BitVec.allOnes 32 else 0
  | .zext => 0
  | .keep => old.extractLsb' 32 32
  | .any => Config.freeUpper i s.draws r old

/-- `WriteW(rd, r)` by the instruction `i`: `x[rd] <- r` at the operating width (46_srm64.md R272). -/
def State.writeW (s : State) (i : Instr) (rd : RegNum) (v : BitVec s.opWidth) : State :=
  if s.narrow then
    { s.setHalves rd (s.upperHalf i (s.reg rd) (v.setWidth 32)) (v.setWidth 32) with draws := s.draws + 1 }
  else s.setReg rd (v.setWidth 64)

/-! ## The instruction pointer (10_state.md R26, R27; 46_srm64.md R276) -/

/-- `pc[W-1:0]`, the address of the instruction that executes. -/
def State.pcW (s : State) : BitVec s.opWidth := s.pc.setWidth s.opWidth

/-- The address of the instruction that executes, zero-extended: with Q = 0 the hart fetches only addresses below
2^32 (46_srm64.md R276; log entry 16). -/
def State.ip (s : State) : Word64 := s.pcW.setWidth 64

/-- `pc + 4` modulo 2^W: the next address in sequence, and the link value (10_state.md R27). -/
def State.seqPc (s : State) : BitVec s.opWidth := s.pcW + 4

/-- `pc <- t`, zero-extended (46_srm64.md R276). -/
def State.setPc {w : Nat} (s : State) (t : BitVec w) : State := { s with pc := t.setWidth 64 }

/-! ## CSRs (10_state.md R31 to R42) -/

/-- The hart is in Kernel mode: `u(csr[1]) >= 2` (10_state.md R34, 45_system.md R251). -/
def State.kernel (s : State) : Bool := decide (2 ≤ s.pvg.toNat)

/-- `csr[n]`; none for the reserved numbers 11 to 4095 (10_state.md R42). -/
def State.csr (s : State) (n : Nat) : Option Word64 :=
  match n with
  | 0 => some s.msr
  | 1 => some s.pvg
  | 2 => some s.spvg
  | 3 => some s.eivba
  | 4 => some s.eic
  | 5 => some s.scvaddr
  | 6 => some s.iraddr
  | 7 => some s.pcsaddr
  | 8 => some s.pcstrv
  | 9 => some s.pcst
  | 10 => some s.htid
  | _ => none

/-- `csr[n] <- v`, the storage alone: the checks of CSRW stand in its own rule (45_system.md R254). `htid` and the
reserved numbers are never stored to. -/
def State.setCsr (s : State) (n : Nat) (v : Word64) : State :=
  match n with
  | 0 => { s with msr := v }
  | 1 => { s with pvg := v }
  | 2 => { s with spvg := v }
  | 3 => { s with eivba := v }
  | 4 => { s with eic := v }
  | 5 => { s with scvaddr := v }
  | 6 => { s with iraddr := v }
  | 7 => { s with pcsaddr := v }
  | 8 => { s with pcstrv := v }
  | 9 => { s with pcst := v }
  | _ => s

/-- `MSR_WRITABLE`: bit 0 on SRM32, bits 0 and 1 on SRM64 (45_system.md R254). -/
def msrWritable (x : Xlen) : Word64 :=
  match x with
  | .x32 => 0x1
  | .x64 => 0x3

/-- External interrupts are enabled: `msr` bit 0 (10_state.md R33). -/
def State.ei (s : State) : Bool := s.msr.getLsbD 0

/-! ## Memory (20_memory.md R60 to R70) -/

/-- What a byte that no entry lists reads as (10_state.md R46 leaves it open: DESIGN CHOICE, unsafe, log entry 5). -/
def Memory.unlisted : Byte := 0

/-- The byte at an address. -/
def Memory.read (m : Memory) (a : Nat) : Byte :=
  match m with
  | [] => Memory.unlisted
  | c :: rest => if c.1 = a then c.2 else Memory.read rest a

/-- Put an entry before the first entry with a higher address. -/
def Memory.insert (m : Memory) (a : Nat) (v : Byte) : Memory :=
  match m with
  | [] => [(a, v)]
  | c :: rest => if a < c.1 then (a, v) :: c :: rest else c :: Memory.insert rest a v

/-- The byte at an address becomes `v`; an entry equal to what an unlisted byte reads as is removed. -/
def Memory.write (m : Memory) (a : Nat) (v : Byte) : Memory :=
  let rest := m.filter fun c => decide (c.1 ≠ a)
  if v = Memory.unlisted then rest else Memory.insert rest a v

/-- The canonical form: addresses strictly rising, and no entry equal to what an unlisted address reads as. -/
abbrev Memory.wf (m : Memory) : Prop :=
  m.Pairwise (fun c d => c.1 < d.1) ∧ ∀ c ∈ m, c.2 ≠ Memory.unlisted

/-- `MEM_MAP` at a byte address (20_memory.md R66). -/
def State.kindAt (s : State) (a : Nat) : MemKind := memKindAt s.cfg.memMap a

/-- Every byte of the access exists (20_memory.md R66). -/
def State.readable (s : State) (addr n : Nat) : Bool :=
  (List.range n).all fun k => s.kindAt (addr + k) != .absent

/-- Every byte of the access can be stored to: ram or a device (20_memory.md R66). -/
def State.writable (s : State) (addr n : Nat) : Bool :=
  (List.range n).all fun k => s.kindAt (addr + k) != .absent && s.kindAt (addr + k) != .rom

/-- Every byte of the access can be fetched: ram or rom (20_memory.md R70). -/
def State.fetchable (s : State) (addr n : Nat) : Bool :=
  (List.range n).all fun k => s.cfg.executable (addr + k)

/-- What a byte address answers a read: the last value written to ram or rom, any value from a device
(20_memory.md R67). -/
def State.byteAt (s : State) (a : Nat) : Byte :=
  match s.kindAt a with
  | .device _ => Config.freeDeviceByte s.draws a
  | .ram | .rom | .absent => s.mem.read a

/-- The bytes of an access in address order. -/
def State.bytesAt (s : State) (addr n : Nat) : List Byte :=
  (List.range n).map fun k => s.byteAt (addr + k)

/-- The device bytes among the bytes of an access. -/
def State.deviceBytes (s : State) (cells : List Host.Cell) : List DeviceByte :=
  cells.filterMap fun c =>
    match s.kindAt c.1 with
    | .device d => some ⟨d, c.1, c.2⟩
    | .ram | .rom | .absent => none

/-- The access as the platform sees it: an event if it touched a device byte (20_memory.md R67). -/
def State.noteAccess (s : State) (isWrite : Bool) (addr n : Nat) (cells : List Host.Cell) : State :=
  match s.deviceBytes cells with
  | [] => s
  | d :: ds => { s with events := s.events ++ [⟨isWrite, addr, n, d :: ds⟩], draws := s.draws + 1 }

/-- `MemRead(addr, n)`, big-endian, with the event a device read is (00_scope.md R11, 20_memory.md R60, R66, R67). -/
def State.load (s : State) (addr n : Nat) : Except Fault (BitVec (8 * n) × State) :=
  if s.readable addr n then
    let bytes := s.bytesAt addr n
    .ok (BitVec.ofNat (8 * n) (beVal bytes),
      s.noteAccess false addr n ((List.range n).map fun k => (addr + k, s.byteAt (addr + k))))
  else .error .unmappedAccess

/-- The bytes a store writes, with their addresses (00_scope.md R11: `MemWrite`). -/
def storeCells (addr n : Nat) (v : BitVec (8 * n)) : List Host.Cell :=
  (List.range n).map fun k => (addr + k, beByte n v k)

/-- The bytes written to ram, one after the other. -/
def State.writeCells (s : State) (cells : List Host.Cell) : State :=
  { s with
    mem := cells.foldl
      (fun m c => if s.kindAt c.1 = .ram then Memory.write m c.1 c.2 else m) s.mem }

/-- `MemWrite(addr, n, v)`, big-endian: ram bytes are stored, device bytes are handed to the platform; an absent or
rom byte faults and nothing is stored (00_scope.md R11, 20_memory.md R60, R66, R67). -/
def State.store (s : State) (addr n : Nat) (v : BitVec (8 * n)) : Except Fault State :=
  if s.writable addr n then
    .ok ((s.writeCells (storeCells addr n v)).noteAccess true addr n (storeCells addr n v))
  else .error .unmappedAccess

/-- The four bytes at the instruction pointer, as a fetch reads them (20_memory.md R70). -/
def State.fetchBytes (s : State) : Except Fault (List Byte) :=
  if s.fetchable s.ip.toNat 4 then .ok ((List.range 4).map fun k => s.mem.read (s.ip.toNat + k))
  else .error .unmappedAccess

/-! ## Taking a trap, and the return (60_exceptions.md R340 to R344, R353) -/

/-- The causes of a trap (60_exceptions.md R340). -/
inductive TrapCause where
  | systemCall
  | external
  | contextSwitch
deriving DecidableEq, Repr

/-- The CSR that holds the address of the cause's handler: `csr5`, `csr3` or `csr7` (60_exceptions.md R340). -/
def State.vector (s : State) (c : TrapCause) : Word64 :=
  match c with
  | .systemCall => s.scvaddr
  | .external => s.eivba
  | .contextSwitch => s.pcsaddr

/-- `Trap(vec)` with the return address `ret`: `iraddr <- ret`, `spvg <- pvg`, `pvg <- 2`, `pc <- csr[vec]`, all reads
before all writes; `msr`, the general registers and memory are left alone (60_exceptions.md R342, R343, R344; the
address modulo 2^W, 46_srm64.md R276). -/
def State.takeTrap (s : State) (c : TrapCause) (ret : BitVec s.opWidth) : State :=
  { s with
    iraddr := ret.setWidth 64
    spvg := s.pvg
    pvg := 2
    pc := ((s.vector c).setWidth s.opWidth).setWidth 64 }

/-- The return from a trap: `pc <- iraddr`, `pvg <- spvg`, nothing else (60_exceptions.md R353; the address modulo 2^W,
46_srm64.md R276). -/
def State.trapReturn (s : State) : State :=
  { s with
    pvg := s.spvg
    pc := (s.iraddr.setWidth s.opWidth).setWidth 64 }

end Sys2Proof.Machine
end

