-- ==== Sys2Proof/Machine/Boundary.lean ====
section
/-! DEFINITION. The instruction boundary: the process context switch timer, the asynchronous traps, and what the
environment does between two instructions (60_exceptions.md R346, R347, R350, R351, R363 (5), (6)). -/

namespace Sys2Proof.Machine

/-- A step in which the environment does nothing. -/
def EnvInput.quiet : EnvInput := ⟨none, false, .keep, []⟩

/-- The environment's input of this step: the head of `inputs`, quiet where none is left (log entry 14). -/
def State.input (s : State) : EnvInput :=
  match s.inputs with
  | [] => EnvInput.quiet
  | i :: _ => i

/-- `PCS_TIMER` updates `csr[9]` and its request (60_exceptions.md R350, R363 (5)). A request that comes while an earlier
one is still due merges with it into one due request, of which the spec says nothing: DESIGN CHOICE, unsafe,
log entry 13. -/
def State.timerTick (s : State) (i : EnvInput) : State :=
  match s.cfg.pcsTimer with
  | .absent => s
  | .countdown =>
    if s.pcst = 0 then { s with pcst := s.pcstrv, timerDue := true } else { s with pcst := s.pcst - 1 }
  | .platform =>
    { s with
      pcst := match i.timer with
        | none => s.pcst
        | some v => s.cfg.fit v
      timerDue := s.timerDue || i.timerRequest }

/-- The timer's request can be taken: `countdown` is gated by `msr` bit 0 like the external interrupt, no gate is
stated for the platform's timer (60_exceptions.md R350). -/
def State.timerWants (s : State) : Bool :=
  match s.cfg.pcsTimer with
  | .absent => false
  | .countdown => s.timerDue && s.ei
  | .platform => s.timerDue

/-- The return address of an asynchronous trap at the boundary after the instruction at `a`, with `n` the address it
set as next: `IRADDR_EXT`, modulo 2^W (60_exceptions.md R347). -/
def State.asyncRet (s : State) (a n : Word64) : BitVec s.opWidth :=
  match s.cfg.iraddrExt with
  | .completedPlus4 => a.setWidth s.opWidth + 4
  | .nextPc => n.setWidth s.opWidth
  | .nextPcPlus4 => n.setWidth s.opWidth + 4

/-- The external interrupt is taken: `eic` receives the cause, `Trap(3)`, and the request is consumed
(60_exceptions.md R346). -/
def State.takeExternal (s : State) (a cause : Word64) : State :=
  { s.takeTrap .external (s.asyncRet a s.pc) with eic := s.cfg.fit cause, irq := none }

/-- The process context switch interrupt is taken: `Trap(7)`, and the request is served (60_exceptions.md R350). -/
def State.takeContextSwitch (s : State) (a : Word64) : State :=
  { s.takeTrap .contextSwitch (s.asyncRet a s.pc) with timerDue := false }

/-- At most one asynchronous trap at a boundary, the external interrupt before the timer
(60_exceptions.md R346, R351 (c), (d)). -/
def State.takeAsync (s : State) (a : Word64) : State :=
  match s.ei, s.irq with
  | true, some cause => s.takeExternal a cause
  | _, _ => if s.timerWants then s.takeContextSwitch a else s

/-- The environment changes bytes of ram; no other byte has contents it could change
(20_memory.md R71, 60_exceptions.md R363 (6); log entry 30). -/
def State.applyPokes (s : State) (pokes : List Host.Cell) : State := s.writeCells pokes

/-- The environment changes the external interrupt request (60_exceptions.md R346, R363 (6)). -/
def State.applyIrq (s : State) (c : IrqChange) : State :=
  match c with
  | .keep => s
  | .raise cause => { s with irq := some cause }
  | .withdraw => { s with irq := none }

/-- Part (5) of a step, with the System extension only: the timer, then at most one asynchronous trap; `a` is the
address of the instruction that has completed (60_exceptions.md R363 (5)). -/
def State.boundary (s : State) (a : Word64) (i : EnvInput) : State :=
  if s.cfg.extS then (s.timerTick i).takeAsync a else s

/-- Parts (5) and (6) of a step, and the environment's input is used up (60_exceptions.md R363). -/
def State.finishStep (s : State) (a : Word64) : State :=
  { ((s.boundary a s.input).applyIrq s.input.irq).applyPokes s.input.pokes with inputs := s.inputs.tail }

end Sys2Proof.Machine
end

