-- ==== Sys2Proof/Machine/Alu.lean ====
section
/-! DEFINITION. The computations of the shift, multiply and divide instructions at a width (40_arithmetic.md R126 to
R128, R131; 48_muldiv.md R311 to R319). -/

namespace Sys2Proof.Machine

/-! ## Shifts -/

/-- A shift by an amount below the width: exact (40_arithmetic.md R126 to R128). -/
def shiftExact {w : Nat} (op : ShiftOp) (a : BitVec w) (n : Nat) : BitVec w :=
  match op with
  | .shr => a >>> n
  | .asr => a.sshiftRight n
  | .shl => a <<< n

/-- `SHIFT_OVER = full`: SHR and SHL give 0, ASR gives copies of the sign bit (40_arithmetic.md R131). -/
def shiftFull {w : Nat} (op : ShiftOp) (a : BitVec w) : BitVec w :=
  match op with
  | .shr | .shl => 0
  | .asr => if a.msb then BitVec.allOnes w else 0

/-- `SHIFT_OVER(op, a, n)` in a configuration (40_arithmetic.md R131). -/
def shiftOver {w : Nat} (c : Config) (op : ShiftOp) (a : BitVec w) (n : Nat) : BitVec w :=
  match c.shiftOver with
  | .full => shiftFull op a
  | .masked => shiftExact op a (n % w)
  | .any => Config.freeShift op w a n

/-- A shift of `a` by the whole of `b` read unsigned (40_arithmetic.md R131). -/
def shift {w : Nat} (c : Config) (op : ShiftOp) (a b : BitVec w) : BitVec w :=
  if b.toNat < w then shiftExact op a b.toNat else shiftOver c op a b.toNat

/-! ## Products (48_muldiv.md R319 (a)) -/

/-- `(u(a) * u(b)) mod 2^W` (48_muldiv.md R311). -/
def mulLow {w : Nat} (a b : BitVec w) : BitVec w := BitVec.ofNat w (a.toNat * b.toNat)

/-- `(s(a) * s(b)) mod 2^W` (48_muldiv.md R312). -/
def smulLow {w : Nat} (a b : BitVec w) : BitVec w := BitVec.ofInt w (a.toInt * b.toInt)

/-- `floor((u(a) * u(b)) / 2^W)` (48_muldiv.md R313). -/
def mulHigh {w : Nat} (a b : BitVec w) : BitVec w := BitVec.ofNat w (a.toNat * b.toNat / 2 ^ w)

/-- `floor((s(a) * s(b)) / 2^W) mod 2^W` (48_muldiv.md R314). -/
def smulHigh {w : Nat} (a b : BitVec w) : BitVec w := BitVec.ofInt w ((a.toInt * b.toInt).fdiv (2 ^ w))

/-! ## Quotients and remainders (48_muldiv.md R319 (b), (c), (d)) -/

/-- `DIV_ZERO(op, a)` in a configuration (48_muldiv.md R319 (c)). -/
def divZero {w : Nat} (c : Config) (op : DivOp) (a : BitVec w) : BitVec w :=
  match c.divZero, op with
  | .onesAndDividend, .div | .onesAndDividend, .sdiv => BitVec.allOnes w
  | .onesAndDividend, .mod | .onesAndDividend, .smod => a
  | .zero, _ => 0
  | .any, _ => Config.freeDivZero op w a

/-- `DIV_OVERFLOW(op)` in a configuration, for the dividend `a = -2^(W-1)` (48_muldiv.md R319 (d)). -/
def divOverflow {w : Nat} (c : Config) (op : DivOp) (a : BitVec w) : BitVec w :=
  match c.divOverflow, op with
  | .wrap, .div | .wrap, .sdiv => a
  | .wrap, .mod | .wrap, .smod => 0
  | .any, _ => Config.freeDivOverflow op w

/-- `s(a) = -2^(W-1)` and `s(b) = -1`: the one quotient that does not fit (48_muldiv.md R319 (d)). -/
def divOverflows {w : Nat} (a b : BitVec w) : Bool :=
  decide (a.toInt = -(2 ^ (w - 1))) && decide (b.toInt = -1)

/-- DIV: `floor(u(a) / u(b))` (48_muldiv.md R315). -/
def divQuot {w : Nat} (c : Config) (a b : BitVec w) : BitVec w :=
  if b.toNat ≠ 0 then BitVec.ofNat w (a.toNat / b.toNat) else divZero c .div a

/-- MOD: `u(a) - floor(u(a) / u(b)) * u(b)` (48_muldiv.md R317). -/
def divRem {w : Nat} (c : Config) (a b : BitVec w) : BitVec w :=
  if b.toNat ≠ 0 then BitVec.ofNat w (a.toNat - a.toNat / b.toNat * b.toNat) else divZero c .mod a

/-- SDIV: `trunc(s(a) / s(b)) mod 2^W`, rounded toward zero (48_muldiv.md R316). -/
def sdivQuot {w : Nat} (c : Config) (a b : BitVec w) : BitVec w :=
  if b.toInt = 0 then divZero c .sdiv a
  else if divOverflows a b then divOverflow c .sdiv a
  else BitVec.ofInt w (a.toInt.tdiv b.toInt)

/-- SMOD: `(s(a) - trunc(s(a) / s(b)) * s(b)) mod 2^W` (48_muldiv.md R318). -/
def sdivRem {w : Nat} (c : Config) (a b : BitVec w) : BitVec w :=
  if b.toInt = 0 then divZero c .smod a
  else if divOverflows a b then divOverflow c .smod a
  else BitVec.ofInt w (a.toInt - a.toInt.tdiv b.toInt * b.toInt)

end Sys2Proof.Machine
end

