-- ==== Sys2Proof/Machine/Flags.lean ====
section
/-! DEFINITION. The hardware has no flags (10_state.md R30): carry and borrow are values that CCH, BCH, CCHI and BCHI
compute into a register. Here stand the two computations and the comparisons of the conditional jumps. -/

namespace Sys2Proof.Machine

/-- The carry out of `a + b` as a value: 1 when `u(a) + u(b) >= 2^W`, else 0 (40_arithmetic.md R129). -/
def carryOut {w : Nat} (a b : BitVec w) : BitVec w :=
  if 2 ^ w ≤ a.toNat + b.toNat then 1 else 0

/-- The borrow out of `a - b` as a value: 1 when `u(a) < u(b)`, else 0 (40_arithmetic.md R130). -/
def borrowOut {w : Nat} (a b : BitVec w) : BitVec w :=
  if a.toNat < b.toNat then 1 else 0

/-- `u(a) < u(b)` (43_jumps.md R185). -/
def unsignedLess {w : Nat} (a b : BitVec w) : Bool := decide (a.toNat < b.toNat)

/-- `s(a) < s(b)`, two's complement (43_jumps.md R186). -/
def signedLess {w : Nat} (a b : BitVec w) : Bool := decide (a.toInt < b.toInt)

end Sys2Proof.Machine
end

