-- ==== Sys2Proof/Machine/Operands.lean ====
section
/-! DEFINITION. The operand forms: source registers, immediates, effective addresses and the data of a store
(00_scope.md R11; 20_memory.md R63, R68; 30_encoding.md R96; 46_srm64.md R273). -/

namespace Sys2Proof.Machine

/-- A source operand: `x[r][W-1:0]` (46_srm64.md R273). -/
def State.src (s : State) (r : RegNum) : BitVec s.opWidth :=
  if s.opWidth = 32 then (s.regLo r).setWidth s.opWidth else (s.reg r).setWidth s.opWidth

/-- `sext_W` of an immediate (30_encoding.md R96). -/
def State.immW {n : Nat} (s : State) (imm : BitVec n) : BitVec s.opWidth := imm.signExtend s.opWidth

/-- `ea = (x[rs1][W-1:0] + sext_W(imm12)) mod 2^W` (20_memory.md R68, 46_srm64.md R276). -/
def State.ea (s : State) (rs1 : RegNum) (imm : Imm12) : BitVec s.opWidth := s.src rs1 + s.immW imm

/-- The address an access of `n` bytes uses: `ea` with its low bits forced to 0 (20_memory.md R63). -/
def State.accessAddr (s : State) (rs1 : RegNum) (imm : Imm12) (n : Nat) : Nat :=
  (s.ea rs1 imm).toNat / n * n

/-- The data of a store: the low `8n` bits of `x[rs2]`, whatever Q is (42_load_store.md R160, 46_srm64.md R273). -/
def State.storeData (s : State) (rs2 : RegNum) (n : Nat) : BitVec (8 * n) :=
  if n ≤ 4 then (s.regLo rs2).setWidth (8 * n) else (s.reg rs2).setWidth (8 * n)

/-- The target of a jump relative to `pc`: `(pc + sext(imm)) mod 2^W` (43_jumps.md R180, R181). -/
def State.relTarget {n : Nat} (s : State) (imm : BitVec n) : BitVec s.opWidth := s.pcW + s.immW imm

/-! ## How an instruction ends -/

/-- What an instruction's meaning answers. -/
abbrev Result := Host.Outcome State Fault Refusal

/-- The result of the instruction `i` goes to `x[rd]` at the operating width, and `pc <- pc + 4` (40_arithmetic.md R120,
46_srm64.md R272). -/
def State.retire (s : State) (i : Instr) (rd : RegNum) (v : BitVec s.opWidth) : Result :=
  .next ((s.writeW i rd v).setPc s.seqPc)

/-- The jump `i`: the link `pc + 4` goes to `x[rd]`, the target to `pc` (43_jumps.md R180 to R182). -/
def State.jumpLink (s : State) (i : Instr) (rd : RegNum) (target : BitVec s.opWidth) : Result :=
  .next ((s.writeW i rd s.seqPc).setPc target)

/-- A conditional jump: `pc + sext(imm)` if the condition holds, else `pc + 4` (43_jumps.md R183). -/
def State.condJump (s : State) (taken : Bool) (imm : Imm12) : Result :=
  .next (s.setPc (if taken then s.relTarget imm else s.seqPc))

/-- A load of `n` bytes, extended by `ext` to the whole register; the read happens also for `rd = 0`
(42_load_store.md R169, 46_srm64.md R273). -/
def State.loadTo (s : State) (rd rs1 : RegNum) (imm : Imm12) (n : Nat) (ext : BitVec (8 * n) → Word64) : Result :=
  match s.load (s.accessAddr rs1 imm n) n with
  | .error f => .fault f
  | .ok (v, t) => .next ((t.setReg rd (ext v)).setPc s.seqPc)

/-- A store of the low `n` bytes of `x[rs2]` (42_load_store.md R160). -/
def State.storeFrom (s : State) (rs1 rs2 : RegNum) (imm : Imm12) (n : Nat) : Result :=
  match s.store (s.accessAddr rs1 imm n) n (s.storeData rs2 n) with
  | .error f => .fault f
  | .ok t => .next (t.setPc s.seqPc)

/-- `zext_64` (00_scope.md R10). -/
def zext64 {w : Nat} (v : BitVec w) : Word64 := v.setWidth 64

/-- `sext_64` (00_scope.md R10). -/
def sext64 {w : Nat} (v : BitVec w) : Word64 := v.signExtend 64

end Sys2Proof.Machine
end

