-- ==== Sys2Proof/Machine/Arith.lean ====
section
/-! DEFINITION. The register arithmetic instructions, opcode 0x00 (40_arithmetic.md R120 to R132). -/

namespace Sys2Proof.Machine

/-- ADD. Add (40_arithmetic.md R121). -/
def execAdd (rd rs1 rs2 : RegNum) (s : State) : Result :=
  s.retire (.add rd rs1 rs2) rd (s.src rs1 + s.src rs2)

/-- SUB. Subtract: `rs1` minus `rs2` (40_arithmetic.md R122). -/
def execSub (rd rs1 rs2 : RegNum) (s : State) : Result :=
  s.retire (.sub rd rs1 rs2) rd (s.src rs1 - s.src rs2)

/-- AND. Bitwise AND (40_arithmetic.md R123). -/
def execAnd (rd rs1 rs2 : RegNum) (s : State) : Result :=
  s.retire (.and rd rs1 rs2) rd (s.src rs1 &&& s.src rs2)

/-- OR. Bitwise OR (40_arithmetic.md R124). -/
def execOr (rd rs1 rs2 : RegNum) (s : State) : Result :=
  s.retire (.or rd rs1 rs2) rd (s.src rs1 ||| s.src rs2)

/-- XOR. Bitwise XOR (40_arithmetic.md R125). -/
def execXor (rd rs1 rs2 : RegNum) (s : State) : Result :=
  s.retire (.xor rd rs1 rs2) rd (s.src rs1 ^^^ s.src rs2)

/-- SHR. Logical right shift (40_arithmetic.md R126). -/
def execShr (rd rs1 rs2 : RegNum) (s : State) : Result :=
  s.retire (.shr rd rs1 rs2) rd (shift s.cfg .shr (s.src rs1) (s.src rs2))

/-- ASR. Arithmetic right shift (40_arithmetic.md R127). -/
def execAsr (rd rs1 rs2 : RegNum) (s : State) : Result :=
  s.retire (.asr rd rs1 rs2) rd (shift s.cfg .asr (s.src rs1) (s.src rs2))

/-- SHL. Logical left shift (40_arithmetic.md R128). -/
def execShl (rd rs1 rs2 : RegNum) (s : State) : Result :=
  s.retire (.shl rd rs1 rs2) rd (shift s.cfg .shl (s.src rs1) (s.src rs2))

/-- CCH. Addition carry check (40_arithmetic.md R129). -/
def execCch (rd rs1 rs2 : RegNum) (s : State) : Result :=
  s.retire (.cch rd rs1 rs2) rd (carryOut (s.src rs1) (s.src rs2))

/-- BCH. Subtraction borrow check (40_arithmetic.md R130). -/
def execBch (rd rs1 rs2 : RegNum) (s : State) : Result :=
  s.retire (.bch rd rs1 rs2) rd (borrowOut (s.src rs1) (s.src rs2))

end Sys2Proof.Machine
end

