-- ==== Sys2Proof/Machine/ArithImm.lean ====
section
/-! DEFINITION. The immediate arithmetic instructions, opcode 0x01, and LUI, opcode 0x02
(41_arithmetic_imm.md R140 to R151). -/

namespace Sys2Proof.Machine

/-- ADDI. Add immediate (41_arithmetic_imm.md R141). -/
def execAddi (rd rs1 : RegNum) (imm : Imm12) (s : State) : Result :=
  s.retire (.addi rd rs1 imm) rd (s.src rs1 + s.immW imm)

/-- ANDI. Bitwise AND immediate (41_arithmetic_imm.md R142). -/
def execAndi (rd rs1 : RegNum) (imm : Imm12) (s : State) : Result :=
  s.retire (.andi rd rs1 imm) rd (s.src rs1 &&& s.immW imm)

/-- ORI. Bitwise OR immediate (41_arithmetic_imm.md R143). -/
def execOri (rd rs1 : RegNum) (imm : Imm12) (s : State) : Result :=
  s.retire (.ori rd rs1 imm) rd (s.src rs1 ||| s.immW imm)

/-- XORI. Bitwise XOR immediate (41_arithmetic_imm.md R144). -/
def execXori (rd rs1 : RegNum) (imm : Imm12) (s : State) : Result :=
  s.retire (.xori rd rs1 imm) rd (s.src rs1 ^^^ s.immW imm)

/-- SHRI. Logical right shift immediate (41_arithmetic_imm.md R145). -/
def execShri (rd rs1 : RegNum) (imm : Imm12) (s : State) : Result :=
  s.retire (.shri rd rs1 imm) rd (shift s.cfg .shr (s.src rs1) (s.immW imm))

/-- ASRI. Arithmetic right shift immediate (41_arithmetic_imm.md R146). -/
def execAsri (rd rs1 : RegNum) (imm : Imm12) (s : State) : Result :=
  s.retire (.asri rd rs1 imm) rd (shift s.cfg .asr (s.src rs1) (s.immW imm))

/-- SHLI. Logical left shift immediate (41_arithmetic_imm.md R147). -/
def execShli (rd rs1 : RegNum) (imm : Imm12) (s : State) : Result :=
  s.retire (.shli rd rs1 imm) rd (shift s.cfg .shl (s.src rs1) (s.immW imm))

/-- CCHI. Addition carry check immediate (41_arithmetic_imm.md R148). -/
def execCchi (rd rs1 : RegNum) (imm : Imm12) (s : State) : Result :=
  s.retire (.cchi rd rs1 imm) rd (carryOut (s.src rs1) (s.immW imm))

/-- BCHI. Subtraction borrow check immediate (41_arithmetic_imm.md R149). -/
def execBchi (rd rs1 : RegNum) (imm : Imm12) (s : State) : Result :=
  s.retire (.bchi rd rs1 imm) rd (borrowOut (s.src rs1) (s.immW imm))

/-- LUI. Load upper immediate: `(sext_W(imm21) * 2^11) mod 2^W` (41_arithmetic_imm.md R150). -/
def execLui (rd : RegNum) (imm : Imm21) (s : State) : Result :=
  s.retire (.lui rd imm) rd (s.immW imm <<< 11)

end Sys2Proof.Machine
end

