-- ==== Sys2Proof/Machine/Jumps.lean ====
section
/-! DEFINITION. The jumps, opcodes 0x05, 0x06 and 0x07 (43_jumps.md R180 to R189). -/

namespace Sys2Proof.Machine

/-- JAL. Jump and link, relative to `pc` (43_jumps.md R181). -/
def execJal (rd : RegNum) (imm : Imm21) (s : State) : Result :=
  s.jumpLink (.jal rd imm) rd (s.relTarget imm)

/-- JALR. Jump to register and link: the target is `x[rs1] + sext(imm)`, with the old value of `rs1` when it is `rd`
(43_jumps.md R182, 00_scope.md R12). -/
def execJalr (rd rs1 : RegNum) (imm : Imm12) (s : State) : Result :=
  s.jumpLink (.jalr rd rs1 imm) rd (s.src rs1 + s.immW imm)

/-- JEQ. Jump if equal (43_jumps.md R184). -/
def execJeq (rs1 rs2 : RegNum) (imm : Imm12) (s : State) : Result :=
  s.condJump (decide (s.src rs1 = s.src rs2)) imm

/-- JLT. Jump if less than, unsigned (43_jumps.md R185). -/
def execJlt (rs1 rs2 : RegNum) (imm : Imm12) (s : State) : Result :=
  s.condJump (unsignedLess (s.src rs1) (s.src rs2)) imm

/-- JSLT. Jump if signed less than (43_jumps.md R186). -/
def execJslt (rs1 rs2 : RegNum) (imm : Imm12) (s : State) : Result :=
  s.condJump (signedLess (s.src rs1) (s.src rs2)) imm

/-- JNE. Jump if not equal (43_jumps.md R187). -/
def execJne (rs1 rs2 : RegNum) (imm : Imm12) (s : State) : Result :=
  s.condJump (decide (s.src rs1 ≠ s.src rs2)) imm

/-- JGE. Jump if greater or equal than, unsigned (43_jumps.md R188). -/
def execJge (rs1 rs2 : RegNum) (imm : Imm12) (s : State) : Result :=
  s.condJump (!unsignedLess (s.src rs1) (s.src rs2)) imm

/-- JSGE. Jump if signed greater or equal than (43_jumps.md R189). -/
def execJsge (rs1 rs2 : RegNum) (imm : Imm12) (s : State) : Result :=
  s.condJump (!signedLess (s.src rs1) (s.src rs2)) imm

end Sys2Proof.Machine
end

