-- ==== Sys2Proof/Machine/LoadStore.lean ====
section
/-! DEFINITION. The stores and loads of the base set, opcodes 0x03 and 0x04 (42_load_store.md R160 to R170). -/

namespace Sys2Proof.Machine

/-- STB. Store byte (42_load_store.md R161). -/
def execStb (rs1 rs2 : RegNum) (imm : Imm12) (s : State) : Result :=
  s.storeFrom rs1 rs2 imm 1

/-- STW. Store word (42_load_store.md R162). -/
def execStw (rs1 rs2 : RegNum) (imm : Imm12) (s : State) : Result :=
  s.storeFrom rs1 rs2 imm 2

/-- STD. Store dword (42_load_store.md R163). -/
def execStd (rs1 rs2 : RegNum) (imm : Imm12) (s : State) : Result :=
  s.storeFrom rs1 rs2 imm 4

/-- LDB. Load byte, zero-extended (42_load_store.md R164). -/
def execLdb (rd rs1 : RegNum) (imm : Imm12) (s : State) : Result :=
  s.loadTo rd rs1 imm 1 zext64

/-- LDSB. Load signed byte (42_load_store.md R165). -/
def execLdsb (rd rs1 : RegNum) (imm : Imm12) (s : State) : Result :=
  s.loadTo rd rs1 imm 1 sext64

/-- LDW. Load word, zero-extended (42_load_store.md R166). -/
def execLdw (rd rs1 : RegNum) (imm : Imm12) (s : State) : Result :=
  s.loadTo rd rs1 imm 2 zext64

/-- LDSW. Load signed word (42_load_store.md R167). -/
def execLdsw (rd rs1 : RegNum) (imm : Imm12) (s : State) : Result :=
  s.loadTo rd rs1 imm 2 sext64

/-- LDD. Load dword, zero-extended (42_load_store.md R168). -/
def execLdd (rd rs1 : RegNum) (imm : Imm12) (s : State) : Result :=
  s.loadTo rd rs1 imm 4 zext64

end Sys2Proof.Machine
end

