-- ==== Sys2Proof/Machine/MulDiv.lean ====
section
/-! DEFINITION. The multiply and divide instructions, opcode 0x0B (48_muldiv.md R310 to R319). -/

namespace Sys2Proof.Machine

/-- MUL. Multiply (48_muldiv.md R311). -/
def execMul (rd rs1 rs2 : RegNum) (s : State) : Result :=
  s.retire (.mul rd rs1 rs2) rd (mulLow (s.src rs1) (s.src rs2))

/-- SMUL. Signed multiply (48_muldiv.md R312). -/
def execSmul (rd rs1 rs2 : RegNum) (s : State) : Result :=
  s.retire (.smul rd rs1 rs2) rd (smulLow (s.src rs1) (s.src rs2))

/-- MULH. Multiply high (48_muldiv.md R313). -/
def execMulh (rd rs1 rs2 : RegNum) (s : State) : Result :=
  s.retire (.mulh rd rs1 rs2) rd (mulHigh (s.src rs1) (s.src rs2))

/-- SMULH. Signed multiply high (48_muldiv.md R314). -/
def execSmulh (rd rs1 rs2 : RegNum) (s : State) : Result :=
  s.retire (.smulh rd rs1 rs2) rd (smulHigh (s.src rs1) (s.src rs2))

/-- DIV. Divide, unsigned (48_muldiv.md R315). -/
def execDiv (rd rs1 rs2 : RegNum) (s : State) : Result :=
  s.retire (.div rd rs1 rs2) rd (divQuot s.cfg (s.src rs1) (s.src rs2))

/-- SDIV. Signed divide (48_muldiv.md R316). -/
def execSdiv (rd rs1 rs2 : RegNum) (s : State) : Result :=
  s.retire (.sdiv rd rs1 rs2) rd (sdivQuot s.cfg (s.src rs1) (s.src rs2))

/-- MOD. Modulo, unsigned (48_muldiv.md R317). -/
def execMod (rd rs1 rs2 : RegNum) (s : State) : Result :=
  s.retire (.mod rd rs1 rs2) rd (divRem s.cfg (s.src rs1) (s.src rs2))

/-- SMOD. Signed modulo (48_muldiv.md R318). -/
def execSmod (rd rs1 rs2 : RegNum) (s : State) : Result :=
  s.retire (.smod rd rs1 rs2) rd (sdivRem s.cfg (s.src rs1) (s.src rs2))

end Sys2Proof.Machine
end

