-- ==== Sys2Proof/Machine/Srm64.lean ====
section
/-! DEFINITION. The instructions of the 64-bit extension (46_srm64.md R280 to R282). -/

namespace Sys2Proof.Machine

/-- STQ. Store qword: all 64 bits of `x[rs2]`, whatever Q is (46_srm64.md R280). -/
def execStq (rs1 rs2 : RegNum) (imm : Imm12) (s : State) : Result :=
  s.storeFrom rs1 rs2 imm 8

/-- LDSD. Load signed dword (46_srm64.md R281). -/
def execLdsd (rd rs1 : RegNum) (imm : Imm12) (s : State) : Result :=
  s.loadTo rd rs1 imm 4 sext64

/-- LDQ. Load qword (46_srm64.md R282). -/
def execLdq (rd rs1 : RegNum) (imm : Imm12) (s : State) : Result :=
  s.loadTo rd rs1 imm 8 zext64

end Sys2Proof.Machine
end

