-- ==== Sys2Proof/Machine/System.lean ====
section
/-! DEFINITION. The System extension's instructions, opcodes 0x08, 0x09 and 0x0A (45_system.md R250 to R258). -/

namespace Sys2Proof.Machine

/-- SYSCALL. The system call trap, with `pc + 4` as the return address, in either mode (45_system.md R252). -/
def execSyscall (s : State) : Result :=
  .next (s.takeTrap .systemCall s.seqPc)

/-- SYSRET. The return from a trap in Kernel mode (45_system.md R253). -/
def execSysret (s : State) : Result :=
  if s.kernel then
    if s.spvg ≠ 0 ∧ s.spvg ≠ 2 then .fault .reservedCsrValue else .next s.trapReturn
  else .fault .sysretInUserMode

/-- The fault of a Kernel-mode CSRW of `v` to `csr[n]`, if it has one, in the order of the rule's tests
(45_system.md R254). -/
def State.csrwFault (s : State) (n : Nat) (v : Word64) : Option Fault :=
  if 11 ≤ n then some .reservedCsr
  else if n = 10 then some .htidWrite
  else if n = 0 ∧ v &&& ~~~(msrWritable s.cfg.xlen) ≠ 0 then some .reservedCsrValue
  else if n = 1 ∧ v ≠ 0 ∧ v ≠ 2 then some .reservedCsrValue
  else none

/-- CSRW. CSR write: `zext(x[rs1][W-1:0])` to `csr[n]` in Kernel mode, nothing in User mode
(45_system.md R254, 46_srm64.md R277). -/
def execCsrw (rs1 : RegNum) (n : CsrNum) (s : State) : Result :=
  let v : Word64 := (s.src rs1).setWidth 64
  if s.kernel then
    match s.csrwFault n.toNat v with
    | some f => .fault f
    | none => .next ((s.setCsr n.toNat v).setPc s.seqPc)
  else .next (s.setPc s.seqPc)

/-- CSRR. CSR read: `csr[n][W-1:0]` in Kernel mode, 0 in User mode (45_system.md R255, 46_srm64.md R277). -/
def execCsrr (rd : RegNum) (n : CsrNum) (s : State) : Result :=
  if s.kernel then
    match s.csr n.toNat with
    | none => .fault .reservedCsr
    | some v => s.retire (.csrr rd n) rd (v.setWidth s.opWidth)
  else s.retire (.csrr rd n) rd 0

end Sys2Proof.Machine
end

