-- ==== Sys2Proof/Machine/Dispatch.lean ====
section
/-! DEFINITION. The meaning of each instruction, one arm per constructor: part (4) of a step
(60_exceptions.md R363). -/

namespace Sys2Proof.Machine

def exec (i : Instr) (s : State) : Host.Outcome State Fault Refusal :=
  match i with
  -- register arithmetic, opcode 0x00, format DSS (40_arithmetic.md)
  | .add rd rs1 rs2 => Sys2Proof.Machine.execAdd rd rs1 rs2 s
  | .sub rd rs1 rs2 => Sys2Proof.Machine.execSub rd rs1 rs2 s
  | .and rd rs1 rs2 => Sys2Proof.Machine.execAnd rd rs1 rs2 s
  | .or rd rs1 rs2 => Sys2Proof.Machine.execOr rd rs1 rs2 s
  | .xor rd rs1 rs2 => Sys2Proof.Machine.execXor rd rs1 rs2 s
  | .shr rd rs1 rs2 => Sys2Proof.Machine.execShr rd rs1 rs2 s
  | .asr rd rs1 rs2 => Sys2Proof.Machine.execAsr rd rs1 rs2 s
  | .shl rd rs1 rs2 => Sys2Proof.Machine.execShl rd rs1 rs2 s
  | .cch rd rs1 rs2 => Sys2Proof.Machine.execCch rd rs1 rs2 s
  | .bch rd rs1 rs2 => Sys2Proof.Machine.execBch rd rs1 rs2 s
  -- immediate arithmetic, opcode 0x01, format DSI (41_arithmetic_imm.md)
  | .addi rd rs1 imm => Sys2Proof.Machine.execAddi rd rs1 imm s
  | .andi rd rs1 imm => Sys2Proof.Machine.execAndi rd rs1 imm s
  | .ori rd rs1 imm => Sys2Proof.Machine.execOri rd rs1 imm s
  | .xori rd rs1 imm => Sys2Proof.Machine.execXori rd rs1 imm s
  | .shri rd rs1 imm => Sys2Proof.Machine.execShri rd rs1 imm s
  | .asri rd rs1 imm => Sys2Proof.Machine.execAsri rd rs1 imm s
  | .shli rd rs1 imm => Sys2Proof.Machine.execShli rd rs1 imm s
  | .cchi rd rs1 imm => Sys2Proof.Machine.execCchi rd rs1 imm s
  | .bchi rd rs1 imm => Sys2Proof.Machine.execBchi rd rs1 imm s
  -- opcode 0x02, format DI
  | .lui rd imm => Sys2Proof.Machine.execLui rd imm s
  -- stores, opcode 0x03, format SSI (42_load_store.md, 46_srm64.md)
  | .stb rs1 rs2 imm => Sys2Proof.Machine.execStb rs1 rs2 imm s
  | .stw rs1 rs2 imm => Sys2Proof.Machine.execStw rs1 rs2 imm s
  | .std rs1 rs2 imm => Sys2Proof.Machine.execStd rs1 rs2 imm s
  | .stq rs1 rs2 imm => Sys2Proof.Machine.execStq rs1 rs2 imm s
  -- loads, opcode 0x04, format DSI
  | .ldb rd rs1 imm => Sys2Proof.Machine.execLdb rd rs1 imm s
  | .ldw rd rs1 imm => Sys2Proof.Machine.execLdw rd rs1 imm s
  | .ldd rd rs1 imm => Sys2Proof.Machine.execLdd rd rs1 imm s
  | .ldq rd rs1 imm => Sys2Proof.Machine.execLdq rd rs1 imm s
  | .ldsb rd rs1 imm => Sys2Proof.Machine.execLdsb rd rs1 imm s
  | .ldsw rd rs1 imm => Sys2Proof.Machine.execLdsw rd rs1 imm s
  | .ldsd rd rs1 imm => Sys2Proof.Machine.execLdsd rd rs1 imm s
  -- jumps, opcodes 0x05 (DI), 0x06 (DSI), 0x07 (SSI) (43_jumps.md)
  | .jal rd imm => Sys2Proof.Machine.execJal rd imm s
  | .jalr rd rs1 imm => Sys2Proof.Machine.execJalr rd rs1 imm s
  | .jeq rs1 rs2 imm => Sys2Proof.Machine.execJeq rs1 rs2 imm s
  | .jlt rs1 rs2 imm => Sys2Proof.Machine.execJlt rs1 rs2 imm s
  | .jslt rs1 rs2 imm => Sys2Proof.Machine.execJslt rs1 rs2 imm s
  | .jne rs1 rs2 imm => Sys2Proof.Machine.execJne rs1 rs2 imm s
  | .jge rs1 rs2 imm => Sys2Proof.Machine.execJge rs1 rs2 imm s
  | .jsge rs1 rs2 imm => Sys2Proof.Machine.execJsge rs1 rs2 imm s
  -- system, opcodes 0x08, 0x09 (DSS), 0x0A (DSI) (45_system.md)
  | .syscall => Sys2Proof.Machine.execSyscall s
  | .sysret => Sys2Proof.Machine.execSysret s
  | .csrw rs1 csr => Sys2Proof.Machine.execCsrw rs1 csr s
  | .csrr rd csr => Sys2Proof.Machine.execCsrr rd csr s
  -- multiply and divide, opcode 0x0B, format DSS (48_muldiv.md)
  | .mul rd rs1 rs2 => Sys2Proof.Machine.execMul rd rs1 rs2 s
  | .smul rd rs1 rs2 => Sys2Proof.Machine.execSmul rd rs1 rs2 s
  | .mulh rd rs1 rs2 => Sys2Proof.Machine.execMulh rd rs1 rs2 s
  | .smulh rd rs1 rs2 => Sys2Proof.Machine.execSmulh rd rs1 rs2 s
  | .div rd rs1 rs2 => Sys2Proof.Machine.execDiv rd rs1 rs2 s
  | .sdiv rd rs1 rs2 => Sys2Proof.Machine.execSdiv rd rs1 rs2 s
  | .mod rd rs1 rs2 => Sys2Proof.Machine.execMod rd rs1 rs2 s
  | .smod rd rs1 rs2 => Sys2Proof.Machine.execSmod rd rs1 rs2 s

end Sys2Proof.Machine
end

