-- ==== Sys2Proof/Machine/Step.lean ====
section
/-! DEFINITION. One step of the hart (60_exceptions.md R363), and where the host places an instruction. -/

namespace Sys2Proof.Machine

/-- One step: (1) the alignment of `pc`, (2) the fetch, (3) the decoding, (4) the instruction, (5) the boundary,
(6) the environment (60_exceptions.md R363, the order of the faults R351 (a)). A configuration the spec refuses takes
no step (93_implementation_defined.md section 5). -/
def step (s : State) : Host.Outcome State Fault Refusal :=
  if !s.cfg.valid then .refused .invalidConfiguration
  else if s.ip.extractLsb' 0 2 ≠ 0 then .fault .misalignedFetch
  else
    match s.fetchBytes with
    | .error f => .fault f
    | .ok bytes =>
      match decodeBytes s.cfg bytes with
      | .error _ => .fault .reservedEncoding
      | .ok (i, _) =>
        match exec i s with
        | .next t => .next (t.finishStep s.ip)
        | .fault f => .fault f
        | .refused r => .refused r

/-- `s` with the instruction whose bits are `w` stored at the instruction pointer, big-endian (20_memory.md R62):
the next step fetches it. The machine simply fetches at `pc`; this stands for the loading of a program (log entry 7). -/
def State.withFetchWord (s : State) (nbits w : Nat) : State :=
  { s with
    mem := (storeCells s.ip.toNat 4 (BitVec.ofNat 32 (w % 2 ^ nbits))).foldl
      (fun m c => Memory.write m c.1 c.2) s.mem }

end Sys2Proof.Machine
end

