-- ==== Sys2Proof/Machine/Assembler.lean ====
section
/-! DEFINITION. The assembler's side of the spec: register and CSR names, immediates, the text of an instruction, and
the pseudo- and macro-instructions as expansions into instructions (44_pseudo_macro.md, 48_muldiv.md R320 to R322,
10_state.md R22, 45_system.md R259). Nothing here is hardware (44_pseudo_macro.md): no step uses it. -/

namespace Sys2Proof.Machine

/-! ## Names (10_state.md R22; 45_system.md R259) -/

/-- The aliases of `r0` to `r31`; those of `r21` to `r31` are the spec's decision (10_state.md R22). -/
def regAliases : List String :=
  ["zr", "at", "gp", "tp", "rp", "sp", "fp", "a0", "a1", "a2", "s0", "s1", "s2"]
    ++ ["t0", "t1", "t2", "t3", "t4", "t5", "t6", "t7"]
    ++ ["s3", "s4", "s5", "s6", "s7", "s8", "a3", "a4", "a5", "a6", "a7"]

/-- The alias of a register. -/
def regName (r : RegNum) : String := regAliases.getD r.toNat ""

/-- Who preserves a register across a call, by convention (10_state.md R22, R23; 43_jumps.md R190). -/
inductive Saver where
  | nobody
  | caller
  | callee
deriving DecidableEq, Repr

/-- The column "saver" of the register table (10_state.md R22). -/
def saver (r : RegNum) : Saver :=
  let n := r.toNat
  if n = 0 ∨ n = 2 ∨ n = 3 then .nobody
  else if n = 1 ∨ (7 ≤ n ∧ n ≤ 9) ∨ (13 ≤ n ∧ n ≤ 20) ∨ 27 ≤ n then .caller
  else .callee

/-- The labels of the CSRs 0 to 10 (45_system.md R259; `spvg` for csr2, 90_conflicts.md C15). -/
def csrLabels : List String :=
  ["msr", "pvg", "spvg", "eivba", "eic", "scvaddr", "iraddr", "pcsaddr", "pcstrv", "pcst", "htid"]

/-- A CSR's label, or its number name (45_system.md R259). -/
def csrName (n : CsrNum) : String := csrLabels.getD n.toNat ("csr" ++ toString n.toNat)

/-! ## Immediates (30_encoding.md R97) -/

/-- The field of a signed immediate of `n` bits; none where the value does not fit. -/
def encodeImm (n : Nat) (v : Int) : Option (BitVec n) :=
  if -(2 ^ (n - 1) : Int) ≤ v ∧ v < 2 ^ (n - 1) then some (BitVec.ofInt n v) else none

/-- The immediate of a label operand: the label's address less the instruction's own (30_encoding.md R97). -/
def labelImm (n : Nat) (here target : Int) : Option (BitVec n) := encodeImm n (target - here)

/-! ## The text of an instruction (44_pseudo_macro.md R200, R201) -/

/-- A mnemonic and its operands, separated by a comma and a space. -/
def asmLine (mnemonic : String) (operands : List String) : String :=
  match operands with
  | [] => mnemonic
  | _ => mnemonic ++ " " ++ String.intercalate ", " operands

/-- A signed number. -/
def asmInt {n : Nat} (imm : BitVec n) : String := toString imm.toInt

/-- A memory operand: a base register and an offset in square brackets. -/
def asmMem (rs1 : RegNum) (imm : Imm12) : String := "[" ++ regName rs1 ++ ", " ++ asmInt imm ++ "]"

/-- A label operand, relative to `$`, the address of the instruction. -/
def asmRel {n : Nat} (imm : BitVec n) : String :=
  if 0 ≤ imm.toInt then "$+" ++ asmInt imm else "$" ++ asmInt imm

/-- Three registers. -/
def asmRRR (m : String) (rd rs1 rs2 : RegNum) : String := asmLine m [regName rd, regName rs1, regName rs2]

/-- Two registers and an immediate. -/
def asmRRI (m : String) (rd rs1 : RegNum) (imm : Imm12) : String := asmLine m [regName rd, regName rs1, asmInt imm]

/-- A register and a memory operand. -/
def asmRM (m : String) (r rs1 : RegNum) (imm : Imm12) : String := asmLine m [regName r, asmMem rs1 imm]

/-- Two registers and a label. -/
def asmRRL (m : String) (rs1 rs2 : RegNum) (imm : Imm12) : String :=
  asmLine m [regName rs1, regName rs2, asmRel imm]

/-- The assembler's line for an instruction (44_pseudo_macro.md R201). -/
def asm : Instr → String
  | .add rd rs1 rs2 => asmRRR "add" rd rs1 rs2
  | .sub rd rs1 rs2 => asmRRR "sub" rd rs1 rs2
  | .and rd rs1 rs2 => asmRRR "and" rd rs1 rs2
  | .or rd rs1 rs2 => asmRRR "or" rd rs1 rs2
  | .xor rd rs1 rs2 => asmRRR "xor" rd rs1 rs2
  | .shr rd rs1 rs2 => asmRRR "shr" rd rs1 rs2
  | .asr rd rs1 rs2 => asmRRR "asr" rd rs1 rs2
  | .shl rd rs1 rs2 => asmRRR "shl" rd rs1 rs2
  | .cch rd rs1 rs2 => asmRRR "cch" rd rs1 rs2
  | .bch rd rs1 rs2 => asmRRR "bch" rd rs1 rs2
  | .addi rd rs1 imm => asmRRI "addi" rd rs1 imm
  | .andi rd rs1 imm => asmRRI "andi" rd rs1 imm
  | .ori rd rs1 imm => asmRRI "ori" rd rs1 imm
  | .xori rd rs1 imm => asmRRI "xori" rd rs1 imm
  | .shri rd rs1 imm => asmRRI "shri" rd rs1 imm
  | .asri rd rs1 imm => asmRRI "asri" rd rs1 imm
  | .shli rd rs1 imm => asmRRI "shli" rd rs1 imm
  | .cchi rd rs1 imm => asmRRI "cchi" rd rs1 imm
  | .bchi rd rs1 imm => asmRRI "bchi" rd rs1 imm
  | .lui rd imm => asmLine "lui" [regName rd, asmInt imm]
  | .stb rs1 rs2 imm => asmRM "stb" rs2 rs1 imm
  | .stw rs1 rs2 imm => asmRM "stw" rs2 rs1 imm
  | .std rs1 rs2 imm => asmRM "std" rs2 rs1 imm
  | .stq rs1 rs2 imm => asmRM "stq" rs2 rs1 imm
  | .ldb rd rs1 imm => asmRM "ldb" rd rs1 imm
  | .ldw rd rs1 imm => asmRM "ldw" rd rs1 imm
  | .ldd rd rs1 imm => asmRM "ldd" rd rs1 imm
  | .ldq rd rs1 imm => asmRM "ldq" rd rs1 imm
  | .ldsb rd rs1 imm => asmRM "ldsb" rd rs1 imm
  | .ldsw rd rs1 imm => asmRM "ldsw" rd rs1 imm
  | .ldsd rd rs1 imm => asmRM "ldsd" rd rs1 imm
  | .jal rd imm => asmLine "jal" [regName rd, asmRel imm]
  | .jalr rd rs1 imm => asmRRI "jalr" rd rs1 imm
  | .jeq rs1 rs2 imm => asmRRL "jeq" rs1 rs2 imm
  | .jlt rs1 rs2 imm => asmRRL "jlt" rs1 rs2 imm
  | .jslt rs1 rs2 imm => asmRRL "jslt" rs1 rs2 imm
  | .jne rs1 rs2 imm => asmRRL "jne" rs1 rs2 imm
  | .jge rs1 rs2 imm => asmRRL "jge" rs1 rs2 imm
  | .jsge rs1 rs2 imm => asmRRL "jsge" rs1 rs2 imm
  | .syscall => asmLine "syscall" []
  | .sysret => asmLine "sysret" []
  | .csrw rs1 n => asmLine "csrw" [regName rs1, csrName n]
  | .csrr rd n => asmLine "csrr" [regName rd, csrName n]
  | .mul rd rs1 rs2 => asmRRR "mul" rd rs1 rs2
  | .smul rd rs1 rs2 => asmRRR "smul" rd rs1 rs2
  | .mulh rd rs1 rs2 => asmRRR "mulh" rd rs1 rs2
  | .smulh rd rs1 rs2 => asmRRR "smulh" rd rs1 rs2
  | .div rd rs1 rs2 => asmRRR "div" rd rs1 rs2
  | .sdiv rd rs1 rs2 => asmRRR "sdiv" rd rs1 rs2
  | .mod rd rs1 rs2 => asmRRR "mod" rd rs1 rs2
  | .smod rd rs1 rs2 => asmRRR "smod" rd rs1 rs2

/-! ## Pseudo-instructions: one instruction each (44_pseudo_macro.md R203 to R217) -/

/-- `zr`. -/
def zr : RegNum := 0

/-- `at`, the assembler's scratch register (44_pseudo_macro.md R235). -/
def atReg : RegNum := 1

/-- `rp`, the return pointer. -/
def rp : RegNum := 4

/-- `sp`, the stack pointer. -/
def sp : RegNum := 5

/-- The pseudo-instructions; a jump's `off` is the distance from the instruction. -/
inductive Pseudo where
  | nop
  | not (rd rs1 : RegNum)
  | inc (rd rs1 : RegNum)
  | dec (rd rs1 : RegNum)
  | mov (rd rs1 : RegNum)
  | movIp (rd : RegNum)
  | ret
  | clr (rd : RegNum)
  | neg (rd : RegNum)
  | slt (rd rs1 rs2 : RegNum)
  | jle (rs1 rs2 : RegNum) (off : Imm12)
  | jgt (rs1 rs2 : RegNum) (off : Imm12)
  | jmp (off : Imm21)
  | sgt (rd rs1 rs2 : RegNum)
  | jz (rs1 : RegNum) (off : Imm12)
  | jnz (rs1 : RegNum) (off : Imm12)
  | jlz (rs1 : RegNum) (off : Imm12)
  | jgz (rs1 : RegNum) (off : Imm12)
  | lea (rd rs1 : RegNum) (imm : Imm12)
deriving DecidableEq, Repr

/-- The one instruction a pseudo-instruction stands for (44_pseudo_macro.md R204 to R217). -/
def Pseudo.expand : Pseudo → Instr
  | .nop => .add zr zr zr
  | .not rd rs1 => .xori rd rs1 (-1)
  | .inc rd rs1 => .addi rd rs1 1
  | .dec rd rs1 => .addi rd rs1 (-1)
  | .mov rd rs1 => .add rd rs1 zr
  | .movIp rd => .jal rd 4
  | .ret => .jalr zr rp 0
  | .clr rd => .xor rd rd rd
  | .neg rd => .sub rd zr rd
  | .slt rd rs1 rs2 => .bch rd rs1 rs2
  | .jle rs1 rs2 off => .jge rs2 rs1 off
  | .jgt rs1 rs2 off => .jlt rs2 rs1 off
  | .jmp off => .jal zr off
  | .sgt rd rs1 rs2 => .bch rd rs2 rs1
  | .jz rs1 off => .jeq rs1 zr off
  | .jnz rs1 off => .jne rs1 zr off
  | .jlz rs1 off => .jslt rs1 zr off
  | .jgz rs1 off => .jslt zr rs1 off
  | .lea rd rs1 imm => .addi rd rs1 imm

/-! ## Macro-instructions: a sequence of instructions each (44_pseudo_macro.md R230 to R241; 48_muldiv.md R320 to R322) -/

/-- The loads that have an `updt` form (44_pseudo_macro.md R236). -/
inductive LoadKind where
  | b
  | sb
  | w
  | sw
  | d
deriving DecidableEq, Repr

/-- The load of a kind. -/
def LoadKind.load (k : LoadKind) (rd rs1 : RegNum) (imm : Imm12) : Instr :=
  match k with
  | .b => .ldb rd rs1 imm
  | .sb => .ldsb rd rs1 imm
  | .w => .ldw rd rs1 imm
  | .sw => .ldsw rd rs1 imm
  | .d => .ldd rd rs1 imm

/-- The stores that have an `updt` form (44_pseudo_macro.md R237). -/
inductive StoreKind where
  | b
  | w
  | d
deriving DecidableEq, Repr

/-- The store of a kind. -/
def StoreKind.store (k : StoreKind) (rs2 rs1 : RegNum) (imm : Imm12) : Instr :=
  match k with
  | .b => .stb rs1 rs2 imm
  | .w => .stw rs1 rs2 imm
  | .d => .std rs1 rs2 imm

/-- The instructions of the M extension, as its macros name them (48_muldiv.md R320). -/
inductive MulOp where
  | mul
  | smul
  | mulh
  | smulh
  | div
  | sdiv
  | mod
  | smod
deriving DecidableEq, Repr

/-- The instruction of an operation. -/
def MulOp.instr (o : MulOp) (rd rs1 rs2 : RegNum) : Instr :=
  match o with
  | .mul => .mul rd rs1 rs2
  | .smul => .smul rd rs1 rs2
  | .mulh => .mulh rd rs1 rs2
  | .smulh => .smulh rd rs1 rs2
  | .div => .div rd rs1 rs2
  | .sdiv => .sdiv rd rs1 rs2
  | .mod => .mod rd rs1 rs2
  | .smod => .smod rd rs1 rs2

/-- The macro-instructions. `push` and `pop` stand for a whole run of consecutive lines. -/
inductive Macro where
  | ldi (rd : RegNum) (c : BitVec 32)
  | push (regs : List RegNum)
  | pop (regs : List RegNum)
  | xchg (rs1 rs2 : RegNum)
  | ldUpdt (k : LoadKind) (rd rs1 : RegNum) (imm : Imm12)
  | stUpdt (k : StoreKind) (rs2 rs1 : RegNum) (imm : Imm12)
  | sslt (rd rs1 rs2 : RegNum)
  | ssgt (rd rs1 rs2 : RegNum)
  | bst (rd : RegNum) (bit : BitVec 5)
  | bcl (rd : RegNum) (bit : BitVec 5)
  | bfl (rd : RegNum) (bit : BitVec 5)
  | mulImm (o : MulOp) (rd rs1 : RegNum) (c : BitVec 32)
  | madd (rd rs1 rs2 : RegNum)
  | smadd (rd rs1 rs2 : RegNum)
  | maddi (rd rs1 : RegNum) (c : BitVec 32)
  | smaddi (rd rs1 : RegNum) (c : BitVec 32)
deriving DecidableEq, Repr

/-- The registers a pseudo-instruction's line names. -/
def Pseudo.regs : Pseudo → List RegNum
  | .nop | .ret | .jmp _ => []
  | .not rd rs1 | .inc rd rs1 | .dec rd rs1 | .mov rd rs1 | .lea rd rs1 _ => [rd, rs1]
  | .movIp r | .clr r | .neg r | .jz r _ | .jnz r _ | .jlz r _ | .jgz r _ => [r]
  | .slt rd rs1 rs2 | .sgt rd rs1 rs2 => [rd, rs1, rs2]
  | .jle rs1 rs2 _ | .jgt rs1 rs2 _ => [rs1, rs2]

/-- The registers a macro-instruction's line names. -/
def Macro.regs : Macro → List RegNum
  | .ldi rd _ | .bst rd _ | .bcl rd _ | .bfl rd _ => [rd]
  | .push rs | .pop rs => rs
  | .xchg rs1 rs2 => [rs1, rs2]
  | .ldUpdt _ rd rs1 _ => [rd, rs1]
  | .stUpdt _ rs2 rs1 _ => [rs2, rs1]
  | .mulImm _ rd rs1 _ | .maddi rd rs1 _ | .smaddi rd rs1 _ => [rd, rs1]
  | .sslt rd rs1 rs2 | .ssgt rd rs1 rs2 | .madd rd rs1 rs2 | .smadd rd rs1 rs2 => [rd, rs1, rs2]

/-- The macro-instruction places an instruction of the M extension. -/
def Macro.usesM : Macro → Bool
  | .mulImm _ _ _ _ | .madd _ _ _ | .smadd _ _ _ | .maddi _ _ _ | .smaddi _ _ _ => true
  | .ldi _ _ | .push _ | .pop _ | .xchg _ _ | .ldUpdt _ _ _ _ | .stUpdt _ _ _ _
  | .sslt _ _ _ | .ssgt _ _ _ | .bst _ _ | .bcl _ _ | .bfl _ _ => false

/-- LDI (44_pseudo_macro.md R231): 0 by XOR, a 12-bit constant by ADDI, else LUI and, where it is not 0, the low 11
bits by ADDI. -/
def expandLdi (rd : RegNum) (c : BitVec 32) : List Instr :=
  let lo : BitVec 11 := c.extractLsb' 0 11
  if c = 0 then [.xor rd rd rd]
  else if -2048 ≤ c.toInt ∧ c.toInt ≤ 2047 then [.addi rd zr (c.setWidth 12)]
  else .lui rd (c.extractLsb' 11 21) :: if lo = 0 then [] else [.addi rd rd (lo.setWidth 12)]

/-- The stores of a run of PUSH lines, from offset `off` downward (44_pseudo_macro.md R232). -/
def pushStores (off : Int) : List RegNum → List Instr
  | [] => []
  | r :: rs => .std sp r (BitVec.ofInt 12 off) :: pushStores (off - 4) rs

/-- The loads of a run of POP lines, from offset `off` upward (44_pseudo_macro.md R233). -/
def popLoads (off : Int) : List RegNum → List Instr
  | [] => []
  | r :: rs => .ldd r sp (BitVec.ofInt 12 off) :: popLoads (off + 4) rs

/-- BST, BCL and BFL: the immediate form with the mask for a bit below 11, else LDI of the mask to `at` and the register
form (44_pseudo_macro.md R239 to R241). -/
def expandBitOp (short : Imm12 → Instr) (long : Instr) (mask : BitVec 32) (bit : BitVec 5) : List Instr :=
  if bit.toNat < 11 then [short (mask.setWidth 12)] else expandLdi atReg mask ++ [long]

/-- The mask with one bit set. -/
def bitMask (bit : BitVec 5) : BitVec 32 := 1 <<< bit.toNat

/-- The instructions a macro-instruction places; none where an offset or the adjustment of `sp` does not fit its field
(30_encoding.md R97). -/
def Macro.expand : Macro → Option (List Instr)
  | .ldi rd c => some (expandLdi rd c)
  | .push regs => (encodeImm 12 (-4 * regs.length)).map fun a => pushStores (-4) regs ++ [.addi sp sp a]
  | .pop regs => (encodeImm 12 (4 * regs.length)).map fun a => popLoads 0 regs ++ [.addi sp sp a]
  | .xchg rs1 rs2 => some [.xor rs1 rs1 rs2, .xor rs2 rs1 rs2, .xor rs1 rs1 rs2]
  | .ldUpdt k rd rs1 imm => some [k.load rd rs1 imm, .addi rs1 rs1 imm]
  | .stUpdt k rs2 rs1 imm => some [k.store rs2 rs1 imm, .addi rs1 rs1 imm]
  | .sslt rd rs1 rs2 => some [.sub rd rs1 rs2, .shri rd rd 31]
  | .ssgt rd rs1 rs2 => some [.sub rd rs2 rs1, .shri rd rd 31]
  | .bst rd bit => some (expandBitOp (.ori rd rd) (.or rd rd atReg) (bitMask bit) bit)
  | .bcl rd bit => some (expandBitOp (.andi rd rd) (.and rd rd atReg) (~~~bitMask bit) bit)
  | .bfl rd bit => some (expandBitOp (.xori rd rd) (.xor rd rd atReg) (bitMask bit) bit)
  | .mulImm o rd rs1 c => some (expandLdi atReg c ++ [o.instr rd rs1 atReg])
  | .madd rd rs1 rs2 => some [.mul atReg rs1 rs2, .add rd rd atReg]
  | .smadd rd rs1 rs2 => some [.smul atReg rs1 rs2, .add rd rd atReg]
  | .maddi rd rs1 c => some (expandLdi atReg c ++ [.mul atReg rs1 atReg, .add rd rd atReg])
  | .smaddi rd rs1 c => some (expandLdi atReg c ++ [.mul atReg rs1 atReg, .add rd rd atReg])

end Sys2Proof.Machine
end

