-- ==== Sys2Proof/OpcodeTable.lean ====
section
/-! DEFINITION. The rows of spec/opcode_table.json as data: what the decoder is held against (30_encoding.md R99, R100,
R108, R112; 47_ext_h.md R301). The decoder does not use it. -/

namespace Sys2Proof

/-- One row: a word matches it when `word &&& mask = value` (30_encoding.md R99); the last three fields say which register
fields the instruction uses. -/
structure TableRow where
  mnemonic : String
  mask : InstrWord
  value : InstrWord
  needs : Needs
  usesRd : Bool
  usesRs1 : Bool
  usesRs2 : Bool
deriving DecidableEq, Repr

/-- The word is the row's instruction in a configuration: it matches, the extension is present, and every register the
instruction uses exists (30_encoding.md R108, R112; 47_ext_h.md R301). -/
def TableRow.holds (r : TableRow) (c : Config) (w : InstrWord) : Prop :=
  w &&& r.mask = r.value ∧ r.needs.met c = true ∧
    (r.usesRd = true → (w.extractLsb' 21 5).toNat < c.nregs) ∧
    (r.usesRs1 = true → (w.extractLsb' 16 5).toNat < c.nregs) ∧
    (r.usesRs2 = true → (w.extractLsb' 7 5).toNat < c.nregs)

/-- Rows 1 to 10 of the table, in its order. -/
def opcodeRows0 : List TableRow :=
  [⟨"ADD", 0xFC00F07F, 0x00000000, .base, true, true, true⟩,
   ⟨"SUB", 0xFC00F07F, 0x00001000, .base, true, true, true⟩,
   ⟨"AND", 0xFC00F07F, 0x00002000, .base, true, true, true⟩,
   ⟨"OR", 0xFC00F07F, 0x00003000, .base, true, true, true⟩,
   ⟨"XOR", 0xFC00F07F, 0x00004000, .base, true, true, true⟩,
   ⟨"SHR", 0xFC00F07F, 0x00005000, .base, true, true, true⟩,
   ⟨"ASR", 0xFC00F07F, 0x00006000, .base, true, true, true⟩,
   ⟨"SHL", 0xFC00F07F, 0x00007000, .base, true, true, true⟩,
   ⟨"CCH", 0xFC00F07F, 0x00008000, .base, true, true, true⟩,
   ⟨"BCH", 0xFC00F07F, 0x00009000, .base, true, true, true⟩]

/-- Rows 11 to 20 of the table, in its order. -/
def opcodeRows1 : List TableRow :=
  [⟨"ADDI", 0xFC00F000, 0x04000000, .base, true, true, false⟩,
   ⟨"ANDI", 0xFC00F000, 0x04002000, .base, true, true, false⟩,
   ⟨"ORI", 0xFC00F000, 0x04003000, .base, true, true, false⟩,
   ⟨"XORI", 0xFC00F000, 0x04004000, .base, true, true, false⟩,
   ⟨"SHRI", 0xFC00F000, 0x04005000, .base, true, true, false⟩,
   ⟨"ASRI", 0xFC00F000, 0x04006000, .base, true, true, false⟩,
   ⟨"SHLI", 0xFC00F000, 0x04007000, .base, true, true, false⟩,
   ⟨"CCHI", 0xFC00F000, 0x04008000, .base, true, true, false⟩,
   ⟨"BCHI", 0xFC00F000, 0x04009000, .base, true, true, false⟩,
   ⟨"LUI", 0xFC000000, 0x08000000, .base, true, false, false⟩]

/-- Rows 21 to 30 of the table, in its order. -/
def opcodeRows2 : List TableRow :=
  [⟨"STB", 0xFC00F000, 0x0C000000, .base, false, true, true⟩,
   ⟨"STW", 0xFC00F000, 0x0C001000, .base, false, true, true⟩,
   ⟨"STD", 0xFC00F000, 0x0C002000, .base, false, true, true⟩,
   ⟨"STQ", 0xFC00F000, 0x0C003000, .srm64, false, true, true⟩,
   ⟨"LDB", 0xFC00F000, 0x10000000, .base, true, true, false⟩,
   ⟨"LDW", 0xFC00F000, 0x10001000, .base, true, true, false⟩,
   ⟨"LDD", 0xFC00F000, 0x10002000, .base, true, true, false⟩,
   ⟨"LDQ", 0xFC00F000, 0x10003000, .srm64, true, true, false⟩,
   ⟨"LDSB", 0xFC00F000, 0x10004000, .base, true, true, false⟩,
   ⟨"LDSW", 0xFC00F000, 0x10005000, .base, true, true, false⟩]

/-- Rows 31 to 40 of the table, in its order. -/
def opcodeRows3 : List TableRow :=
  [⟨"LDSD", 0xFC00F000, 0x10006000, .srm64, true, true, false⟩,
   ⟨"JAL", 0xFC000000, 0x14000000, .base, true, false, false⟩,
   ⟨"JALR", 0xFC00F000, 0x18000000, .base, true, true, false⟩,
   ⟨"JEQ", 0xFC00F000, 0x1C000000, .base, false, true, true⟩,
   ⟨"JLT", 0xFC00F000, 0x1C001000, .base, false, true, true⟩,
   ⟨"JSLT", 0xFC00F000, 0x1C002000, .base, false, true, true⟩,
   ⟨"JNE", 0xFC00F000, 0x1C004000, .base, false, true, true⟩,
   ⟨"JGE", 0xFC00F000, 0x1C005000, .base, false, true, true⟩,
   ⟨"JSGE", 0xFC00F000, 0x1C006000, .base, false, true, true⟩,
   ⟨"SYSCALL", 0xFFFFFFFF, 0x20000000, .system, false, false, false⟩]

/-- Rows 41 to 50 of the table, in its order. -/
def opcodeRows4 : List TableRow :=
  [⟨"SYSRET", 0xFFFFFFFF, 0x24000000, .system, false, false, false⟩,
   ⟨"CSRW", 0xFFE0F000, 0x28000000, .system, false, true, false⟩,
   ⟨"CSRR", 0xFC1FF000, 0x28001000, .system, true, false, false⟩,
   ⟨"MUL", 0xFC00F07F, 0x2C000000, .mulDiv, true, true, true⟩,
   ⟨"SMUL", 0xFC00F07F, 0x2C001000, .mulDiv, true, true, true⟩,
   ⟨"MULH", 0xFC00F07F, 0x2C002000, .mulDiv, true, true, true⟩,
   ⟨"SMULH", 0xFC00F07F, 0x2C003000, .mulDiv, true, true, true⟩,
   ⟨"DIV", 0xFC00F07F, 0x2C004000, .mulDiv, true, true, true⟩,
   ⟨"SDIV", 0xFC00F07F, 0x2C005000, .mulDiv, true, true, true⟩,
   ⟨"MOD", 0xFC00F07F, 0x2C006000, .mulDiv, true, true, true⟩]

/-- Rows 51 to 51 of the table, in its order. -/
def opcodeRows5 : List TableRow :=
  [⟨"SMOD", 0xFC00F07F, 0x2C007000, .mulDiv, true, true, true⟩]

/-- The 51 rows (30_encoding.md R100). -/
def opcodeTable : List TableRow :=
  opcodeRows0 ++ opcodeRows1 ++ opcodeRows2 ++ opcodeRows3 ++ opcodeRows4 ++ opcodeRows5

end Sys2Proof
end

