-- ==== Sys2Proof/Safety.lean ====
section
/-! DEFINITION. The terms the statements are made in: operands and addresses as numbers, what stays unchanged, the
effects an instruction may have, and the invariants (00_scope.md R10, R11). -/

namespace Sys2Proof.Machine

/-! ## Operands as numbers (00_scope.md R10; 46_srm64.md R273) -/

/-- `u(x[r][W-1:0])`. -/
def State.u (s : State) (r : RegNum) : Nat := (s.reg r).toNat % 2 ^ s.opWidth

/-- `s(x[r][W-1:0])`, two's complement. -/
def State.sgn (s : State) (r : RegNum) : Int := ((s.reg r).toNat : Int).bmod (2 ^ s.opWidth)

/-- `u(sext_W(imm))` (30_encoding.md R96). -/
def State.immU {n : Nat} (s : State) (imm : BitVec n) : Nat := (imm.toInt % (2 ^ s.opWidth : Nat)).toNat

/-- A number, brought to the operating width: `v mod 2^W`. -/
def State.wrap (s : State) (v : Int) : Nat := (v % (2 ^ s.opWidth : Nat)).toNat

/-- `(pc + 4) mod 2^W` (10_state.md R27). -/
def State.seqNat (s : State) : Nat := (s.pc.toNat + 4) % 2 ^ s.opWidth

/-- The effective address with its low bits forced to 0 by the size `n` (20_memory.md R63, R68). -/
def State.eaNat (s : State) (rs1 : RegNum) (imm : Imm12) (n : Nat) : Nat :=
  (s.u rs1 + s.immU imm) % 2 ^ s.opWidth - (s.u rs1 + s.immU imm) % 2 ^ s.opWidth % n

/-- The `n` bytes at an address as a big-endian number (20_memory.md R60). -/
def State.memNat (s : State) (addr : Nat) : Nat → Nat
  | 0 => 0
  | n + 1 => s.memNat addr n * 256 + (s.mem.read (addr + n)).toNat

/-- Every byte of the access is ram or rom. -/
def State.plainMemory (s : State) (addr n : Nat) : Prop :=
  ∀ k < n, s.kindAt (addr + k) = .ram ∨ s.kindAt (addr + k) = .rom

/-- The byte belongs to a device (20_memory.md R66). -/
def State.isDevice (s : State) (a : Nat) : Bool :=
  match s.kindAt a with
  | .device _ => true
  | .ram | .rom | .absent => false

/-- Every byte of the access is ram. -/
def State.ramOnly (s : State) (addr n : Nat) : Prop := ∀ k < n, s.kindAt (addr + k) = .ram

/-! ## What stays unchanged -/

/-- Every CSR is as before. -/
def SameCsrs (s t : State) : Prop :=
  t.msr = s.msr ∧ t.pvg = s.pvg ∧ t.spvg = s.spvg ∧ t.eivba = s.eivba ∧ t.eic = s.eic ∧ t.scvaddr = s.scvaddr ∧
    t.iraddr = s.iraddr ∧ t.pcsaddr = s.pcsaddr ∧ t.pcstrv = s.pcstrv ∧ t.pcst = s.pcst ∧ t.htid = s.htid

/-- The configuration and the environment's part of the state are as before. -/
def SamePlatform (s t : State) : Prop :=
  t.cfg = s.cfg ∧ t.irq = s.irq ∧ t.timerDue = s.timerDue ∧ t.inputs = s.inputs

/-- Every general register is as before. -/
def SameRegs (s t : State) : Prop := ∀ r, t.reg r = s.reg r

/-- Every byte of memory is as before. -/
def SameMemory (s t : State) : Prop := ∀ a, t.mem.read a = s.mem.read a

/-- Every byte of memory outside `n` bytes from `addr` is as before. -/
def SameMemoryOutside (s t : State) (addr n : Nat) : Prop :=
  ∀ a, (a < addr ∨ addr + n ≤ a) → t.mem.read a = s.mem.read a

/-! ## Effects -/

/-- `WriteW(rd, v)`: the low `W` bits of `x[rd]` are `v`, all of the register is `v` where the width is the register's
own, a write to `x[0]` is lost, and no other register changes (10_state.md R21, 46_srm64.md R272). -/
def RegWritten (s t : State) (rd : RegNum) (v : Nat) : Prop :=
  (∀ r, r ≠ rd → t.reg r = s.reg r) ∧ t.reg 0 = 0 ∧
    (rd ≠ 0 → (t.reg rd).toNat % 2 ^ s.opWidth = v ∧ (s.narrow = false → (t.reg rd).toNat = v))

/-- The instruction completes, writes `v` to `x[rd]` at the operating width, goes on at `pc`, and changes nothing else. -/
def CompletesWriting (i : Instr) (s : State) (rd : RegNum) (v pc : Nat) : Prop :=
  ∃ t, exec i s = .next t ∧ RegWritten s t rd v ∧ t.pc.toNat = pc ∧
    SameCsrs s t ∧ SamePlatform s t ∧ SameMemory s t ∧ t.events = s.events

/-- The instruction completes, writes `v` to `x[rd]` at the operating width, and goes on at `pc + 4`; nothing else
changes (40_arithmetic.md R120, 41_arithmetic_imm.md R140, 48_muldiv.md R310). -/
def Computes (i : Instr) (s : State) (rd : RegNum) (v : Nat) : Prop := CompletesWriting i s rd v s.seqNat

/-- `x[rd] <- v` at all `XLEN` bits: a write to `x[0]` is lost, and no other register changes (10_state.md R21,
42_load_store.md R169, 46_srm64.md R273). -/
def RegLoaded (s t : State) (rd : RegNum) (v : Nat) : Prop :=
  (∀ r, r ≠ rd → t.reg r = s.reg r) ∧ t.reg 0 = 0 ∧ (rd ≠ 0 → (t.reg rd).toNat = v % 2 ^ s.cfg.xlen.bits)

/-- The instruction completes, writes `v` to all `XLEN` bits of `x[rd]`, and goes on at `pc + 4`; nothing else changes
(42_load_store.md R169, 46_srm64.md R273). -/
def Loads (i : Instr) (s : State) (rd : RegNum) (v : Nat) : Prop :=
  ∃ t, exec i s = .next t ∧ RegLoaded s t rd v ∧ t.pc.toNat = s.seqNat ∧
    SameCsrs s t ∧ SamePlatform s t ∧ SameMemory s t ∧ t.events = s.events

/-- The instruction completes, the `n` bytes from `addr` are the low `8n` bits of `x[rs2]` big-endian, every other byte
of memory, every register and everything else but `pc` is as before (42_load_store.md R160). -/
def Stores (i : Instr) (s : State) (rs2 : RegNum) (addr n : Nat) : Prop :=
  ∃ t, exec i s = .next t ∧ t.memNat addr n = (s.reg rs2).toNat % 2 ^ (8 * n) ∧ SameMemoryOutside s t addr n ∧
    SameRegs s t ∧ t.pc.toNat = s.seqNat ∧ SameCsrs s t ∧ SamePlatform s t ∧ t.events = s.events

/-- The instruction completes and goes on at `pc + 4` in `t`; the access of `n` bytes at `addr` is one event for the
platform, which names the device bytes it touched, each with its device; every CSR is as before (20_memory.md R67). -/
def CompletesWithEvent (i : Instr) (s t : State) (isWrite : Bool) (addr n : Nat) (bytes : List DeviceByte) : Prop :=
  exec i s = .next t ∧ t.events = s.events ++ [⟨isWrite, addr, n, bytes⟩] ∧
    (∀ b ∈ bytes, s.kindAt b.addr = .device b.device) ∧ t.pc.toNat = s.seqNat ∧ SameCsrs s t ∧ SamePlatform s t

/-- The instruction completes, goes on at `pc`, and changes nothing else. -/
def Jumps (i : Instr) (s : State) (pc : Nat) : Prop :=
  ∃ t, exec i s = .next t ∧ t.pc.toNat = pc ∧ SameRegs s t ∧
    SameCsrs s t ∧ SamePlatform s t ∧ SameMemory s t ∧ t.events = s.events

/-! ## The boundary (60_exceptions.md R346, R347, R350) -/

/-- The return address of an asynchronous trap after the instruction at `a`, by `IRADDR_EXT` (60_exceptions.md R347), at
the width of the state (log entry 24). -/
def State.asyncRetNat (s : State) (a : Word64) : Nat :=
  (match s.cfg.iraddrExt with
    | .completedPlus4 => a.toNat + 4
    | .nextPc => s.pc.toNat
    | .nextPcPlus4 => s.pc.toNat + 4) % 2 ^ s.opWidth

/-- What the timer makes of `pcst` at a boundary: `absent` leaves it, `countdown` decreases it or reloads it from
`pcstrv`, the platform's timer may replace it (60_exceptions.md R350; the cut to `XLEN` bits: log entry 31). -/
def State.timerValue (s : State) (i : EnvInput) : Nat :=
  match s.cfg.pcsTimer with
  | .absent => s.pcst.toNat
  | .countdown => if s.pcst.toNat = 0 then s.pcstrv.toNat else s.pcst.toNat - 1
  | .platform =>
    match i.timer with
    | none => s.pcst.toNat
    | some v => v.toNat % 2 ^ s.cfg.xlen.bits

/-- The timer's request is due at a boundary: it was due before, or the timer makes it at this boundary: `countdown` when
`pcst` would pass zero, the platform's timer when its input says so (60_exceptions.md R350, R351 (c); log entry 13). -/
def State.timerDueNow (s : State) (i : EnvInput) : Bool :=
  s.timerDue ||
    match s.cfg.pcsTimer with
    | .absent => false
    | .countdown => decide (s.pcst.toNat = 0)
    | .platform => i.timerRequest

/-- An asynchronous trap entry from `s` to `t`, with the vector `vec`, after the instruction at `a`
(60_exceptions.md R342, R347). -/
def TrapEntered (s t : State) (a vec : Word64) : Prop :=
  t.iraddr.toNat = s.asyncRetNat a ∧ t.spvg = s.pvg ∧ t.pvg = 2 ∧ t.pc.toNat = vec.toNat % 2 ^ s.opWidth

/-- What no boundary changes: `msr`, the vectors, `pcstrv` and `htid`, the general registers, memory, the events, the
inputs and the configuration (60_exceptions.md R343, R344, R363 (5)). -/
def BoundaryFrame (s t : State) : Prop :=
  t.msr = s.msr ∧ t.eivba = s.eivba ∧ t.scvaddr = s.scvaddr ∧ t.pcsaddr = s.pcsaddr ∧ t.pcstrv = s.pcstrv ∧
    t.htid = s.htid ∧ SameRegs s t ∧ t.mem = s.mem ∧ t.events = s.events ∧ t.inputs = s.inputs ∧ t.cfg = s.cfg

/-! ## Invariants -/

/-- The mode is User or Kernel (10_state.md R34, 60_exceptions.md R356). -/
def State.legalMode (s : State) : Prop := s.pvg = 0 ∨ s.pvg = 2

/-- The reserved bits of `msr` are 0 (10_state.md R33). -/
def State.msrReservedZero (s : State) : Prop := s.msr &&& ~~~(msrWritable s.cfg.xlen) = 0

/-- On SRM32 every register, CSR and `pc` holds at most 32 bits (10_state.md R20, R26, R32). -/
def State.narrowStorage (s : State) : Prop :=
  s.cfg.xlen = .x32 →
    (∀ r, (s.reg r).toNat < 2 ^ 32) ∧ s.pc.toNat < 2 ^ 32 ∧ ∀ n v, s.csr n = some v → v.toNat < 2 ^ 32

/-- The memory is in its canonical form, the mode is legal, the reserved bits of `msr` are 0, SRM32 holds 32-bit values,
and `htid` reads the parameter HTID. -/
def State.inv (s : State) : Prop :=
  s.mem.wf ∧ s.legalMode ∧ s.msrReservedZero ∧ s.narrowStorage ∧ s.htid = s.cfg.fit s.cfg.htid

/-! ## The 64-bit machine with Q = 0 against the 32-bit machine (46_srm64.md R271, R273) -/

/-- What the environment gives is made for an SRM32 hart: every interrupt cause and every value of the platform's timer
has 32 bits (60_exceptions.md R346: the cause is an `XLEN`-bit value). -/
def State.environment32 (s : State) : Prop :=
  (∀ c, s.irq = some c → c.toNat < 2 ^ 32) ∧
    ∀ e ∈ s.inputs, (∀ v, e.timer = some v → v.toNat < 2 ^ 32) ∧ ∀ c, e.irq = .raise c → c.toNat < 2 ^ 32

/-- `b` is an SRM64 state with Q = 0 that stands for the SRM32 state `a`: the same configuration but for the register
size (SRM64 has the System extension), the same low halves of the registers, and the same `pc`, CSRs, memory, events,
interrupt and timer requests and inputs; no memory belongs to a device. -/
def Srm32Sim (a b : State) : Prop :=
  b.cfg.xlen = .x64 ∧ b.cfg.extS = true ∧ b.q = false ∧ a.cfg = { b.cfg with xlen := .x32 } ∧
    (∀ x, ∀ d, b.kindAt x ≠ .device d) ∧
    (∀ r, a.regLo r = b.regLo r) ∧ a.pc = b.pc ∧ SameCsrs a b ∧ SameMemory a b ∧
    a.events = b.events ∧ a.irq = b.irq ∧ a.timerDue = b.timerDue ∧ a.inputs = b.inputs ∧ b.environment32

/-! ## What User mode cannot see (60_exceptions.md R357) -/

/-- The CSRs that only Kernel mode uses: all but `msr` and `pvg`. -/
structure KernelCsrs where
  spvg : Word64
  eivba : Word64
  eic : Word64
  scvaddr : Word64
  iraddr : Word64
  pcsaddr : Word64
  pcstrv : Word64
  pcst : Word64
  htid : Word64
deriving DecidableEq, Repr

/-- `s` with other contents of those CSRs. -/
def State.withKernelCsrs (s : State) (k : KernelCsrs) : State :=
  { s with
    spvg := k.spvg
    eivba := k.eivba
    eic := k.eic
    scvaddr := k.scvaddr
    iraddr := k.iraddr
    pcsaddr := k.pcsaddr
    pcstrv := k.pcstrv
    pcst := k.pcst
    htid := k.htid }

end Sys2Proof.Machine

namespace Sys2Proof

/-! ## Classes of instructions -/

/-- The stores (30_encoding.md R101). -/
def Instr.isStore : Instr → Bool
  | .stb _ _ _ | .stw _ _ _ | .std _ _ _ | .stq _ _ _ => true
  | _ => false

/-- The loads (30_encoding.md R101). -/
def Instr.isLoad : Instr → Bool
  | .ldb _ _ _ | .ldw _ _ _ | .ldd _ _ _ | .ldq _ _ _ | .ldsb _ _ _ | .ldsw _ _ _ | .ldsd _ _ _ => true
  | _ => false

/-- The base register, the offset and the size in bytes of a load's or a store's access (20_memory.md R65). -/
def Instr.access : Instr → Option (RegNum × Imm12 × Nat)
  | .stb rs1 _ imm | .ldb _ rs1 imm | .ldsb _ rs1 imm => some (rs1, imm, 1)
  | .stw rs1 _ imm | .ldw _ rs1 imm | .ldsw _ rs1 imm => some (rs1, imm, 2)
  | .std rs1 _ imm | .ldd _ rs1 imm | .ldsd _ rs1 imm => some (rs1, imm, 4)
  | .stq rs1 _ imm | .ldq _ rs1 imm => some (rs1, imm, 8)
  | _ => none

/-- The destination register of a load. -/
def Instr.loadDest : Instr → Option RegNum
  | .ldb rd _ _ | .ldw rd _ _ | .ldd rd _ _ | .ldq rd _ _ | .ldsb rd _ _ | .ldsw rd _ _ | .ldsd rd _ _ => some rd
  | _ => none

/-- What a load makes in 64 bits of the number `v` of its `n` bytes: LDSB, LDSW and LDSD extend the sign, the others
extend with zeros (42_load_store.md R164 to R168; 46_srm64.md R281, R282). -/
def Instr.loadValue (i : Instr) (n v : Nat) : Nat :=
  match i with
  | .ldsb _ _ _ | .ldsw _ _ _ | .ldsd _ _ _ => (((v : Int).bmod (2 ^ (8 * n))) % (2 ^ 64 : Nat)).toNat
  | _ => v

/-- The data register of a store. -/
def Instr.storeSource : Instr → Option RegNum
  | .stb _ rs2 _ | .stw _ rs2 _ | .std _ rs2 _ | .stq _ rs2 _ => some rs2
  | _ => none

end Sys2Proof
end

