-- ==== Sys2Proof/Certificates/Slice0/Obligations.lean ====
section
/-! DEFINITION. The statements for the provers, from the numbered rules of spec/. -/

open Sys2Proof Sys2Proof.Machine

/-! ## Encoding -/

/-- Decoding the encoding of an instruction of the configuration gives it back, every operand at every value
(30_encoding.md R91 to R95, R100, R106; 47_ext_h.md R301). -/
def Obligations.EncodeDecodeRoundTrip : Prop :=
  ∀ (c : Config) (i : Instr), i.wellFormed c = true → decode c (encode c.csrField i) = .ok i

/-- Every word has at most one meaning, every unused field of it is 0, and what it decodes to exists in the
configuration: encoding that instruction gives the word back (30_encoding.md R99, R108, R112; 47_ext_h.md R301). -/
def Obligations.DecodeEncodeRoundTrip : Prop :=
  ∀ (c : Config) (w : InstrWord) (i : Instr), decode c w = .ok i →
    encode c.csrField i = w ∧ i.wellFormed c = true

/-- A word decodes to an instruction exactly where a row of the opcode table holds of it in the configuration, and then
to that row's instruction; every other word is a reserved encoding (30_encoding.md R98, R99, R100, R108, R112;
47_ext_h.md R301). The table is the one of `CSR_FIELD = imm12` (R106). -/
def Obligations.DecoderAgreesWithOpcodeTable : Prop :=
  ∀ (c : Config) (w : InstrWord), c.csrField = .imm12 →
    (∀ i, decode c w = .ok i → ∃ r ∈ opcodeTable, r.holds c w ∧ r.mnemonic = i.mnemonic) ∧
    (∀ r ∈ opcodeTable, r.holds c w → ∃ i, decode c w = .ok i ∧ i.mnemonic = r.mnemonic)

/-- Words written out by hand from the encodings decode to their instructions (30_encoding.md R103). -/
def Obligations.WrittenOutWordsDecode : Prop :=
  decode .srm32sm 0x00E80480 = .ok (.add 7 8 9) ∧
    decode .srm32sm 0x04E80FFF = .ok (.addi 7 8 (-1)) ∧
    decode .srm32sm 0x08E12345 = .ok (.lui 7 0x12345) ∧
    decode .srm32sm 0x0FE523FC = .ok (.std 5 7 (-4)) ∧
    decode .srm32sm 0x10E52008 = .ok (.ldd 7 5 8) ∧
    decode .srm32sm 0x14800010 = .ok (.jal 4 16) ∧
    decode .srm32sm 0x18040000 = .ok (.jalr 0 4 0) ∧
    decode .srm32sm 0x1FE74078 = .ok (.jne 7 0 (-8)) ∧
    decode .srm32sm 0x20000000 = .ok .syscall ∧
    decode .srm32sm 0x28070005 = .ok (.csrw 7 5) ∧
    decode .srm32sm 0x2CE80480 = .ok (.mul 7 8 9) ∧
    decode .srm64sm 0x0C083388 = .ok (.stq 8 7 8)

/-- The instructions that every pseudo- and macro-instruction places exist in a configuration that has the registers
its line names and, for the macros of the M extension, that extension (47_ext_h.md R302). -/
def Obligations.ExpansionsAreWellFormed : Prop :=
  (∀ (c : Config) (p : Pseudo), (∀ r ∈ p.regs, r.toNat < c.nregs) → p.expand.wellFormed c = true) ∧
    (∀ (c : Config) (m : Macro) (l : List Instr), m.expand = some l → (∀ r ∈ m.regs, r.toNat < c.nregs) →
      (m.usesM = true → c.extM = true) → ∀ i ∈ l, i.wellFormed c = true)

/-! ## The step -/

/-- Where the four bytes at `s.ip` are ram or rom and decode to an instruction, the step is that instruction, followed by
the boundary and the environment's part, `finishStep` (60_exceptions.md R363; 20_memory.md R62, R70). That the fetch is at
`s.ip`, `pc` modulo 2^W, where an SRM64 hart with Q = 0 has a `pc` at or above 2^32, is the model's reading of
46_srm64.md R276 (log entry 16); elsewhere `s.ip` is `pc`. -/
def Obligations.StepRunsDecodedInstruction : Prop :=
  ∀ (s : State) (i : Instr), s.cfg.valid = true → s.pc.extractLsb' 0 2 = 0 → s.plainMemory s.ip.toNat 4 →
    decode s.cfg (s.mem.read s.ip.toNat ++ s.mem.read (s.ip.toNat + 1) ++ s.mem.read (s.ip.toNat + 2) ++
      s.mem.read (s.ip.toNat + 3)) = .ok i →
    step s = match exec i s with
      | .next t => .next (t.finishStep s.ip)
      | .fault f => .fault f
      | .refused r => .refused r

/-- A step that starts with `pc[1:0]` not 0 is ModelFault(MisalignedFetch), whatever memory holds
(10_state.md R28, 20_memory.md R64, 60_exceptions.md R351 (a)). -/
def Obligations.MisalignedFetchFaults : Prop :=
  ∀ s : State, s.cfg.valid = true → s.pc.extractLsb' 0 2 ≠ 0 → step s = .fault .misalignedFetch

/-- A fetch that touches an absent or a device byte is ModelFault(UnmappedAccess) (20_memory.md R66, R70). That the fetch
is at `s.ip`, `pc` modulo 2^W, is the model's reading of 46_srm64.md R276 (log entry 16). -/
def Obligations.UnmappedFetchFaults : Prop :=
  ∀ (s : State) (k : Nat), s.cfg.valid = true → s.pc.extractLsb' 0 2 = 0 → k < 4 →
    (s.kindAt (s.ip.toNat + k) = .absent ∨ ∃ d, s.kindAt (s.ip.toNat + k) = .device d) →
    step s = .fault .unmappedAccess

/-- Executing a reserved encoding is ModelFault(ReservedEncoding) (30_encoding.md R108, 60_exceptions.md R363). That the
fetch is at `s.ip`, `pc` modulo 2^W, is the model's reading of 46_srm64.md R276 (log entry 16). -/
def Obligations.ReservedEncodingFaults : Prop :=
  ∀ (s : State) (e : DecodeError), s.cfg.valid = true → s.pc.extractLsb' 0 2 = 0 → s.plainMemory s.ip.toNat 4 →
    decode s.cfg (s.mem.read s.ip.toNat ++ s.mem.read (s.ip.toNat + 1) ++ s.mem.read (s.ip.toNat + 2) ++
      s.mem.read (s.ip.toNat + 3)) = .error e →
    step s = .fault .reservedEncoding

/-- The operating width: 32 on SRM32, and on SRM64 64 or 32 by bit 1 of `msr`; SRM64 without the System extension takes
no step; a trap entry and SYSRET keep the width (46_srm64.md R271). -/
def Obligations.OperatingWidthFollowsQ : Prop :=
  ∀ s : State, (s.cfg.xlen = .x32 → s.opWidth = 32) ∧
    (s.cfg.xlen = .x64 → s.msr.toNat / 2 % 2 = 1 → s.opWidth = 64) ∧
    (s.cfg.xlen = .x64 → s.msr.toNat / 2 % 2 = 0 → s.opWidth = 32) ∧
    (s.cfg.xlen = .x64 → s.cfg.extS = false → step s = .refused .invalidConfiguration) ∧
    (∀ (c : TrapCause) (ret : BitVec s.opWidth), (s.takeTrap c ret).opWidth = s.opWidth) ∧
    (∀ t, exec .sysret s = .next t → t.opWidth = s.opWidth)

/-! ## Register and immediate arithmetic -/

/-- ADD, SUB, AND, OR and XOR: the result at the operating width, and nothing else changes but `pc`
(40_arithmetic.md R120 to R125). -/
def Obligations.RegisterArithmeticResults : Prop :=
  ∀ (s : State) (rd rs1 rs2 : RegNum),
    Computes (.add rd rs1 rs2) s rd ((s.u rs1 + s.u rs2) % 2 ^ s.opWidth) ∧
    Computes (.sub rd rs1 rs2) s rd (s.wrap ((s.u rs1 : Int) - s.u rs2)) ∧
    Computes (.and rd rs1 rs2) s rd (s.u rs1 &&& s.u rs2) ∧
    Computes (.or rd rs1 rs2) s rd (s.u rs1 ||| s.u rs2) ∧
    Computes (.xor rd rs1 rs2) s rd (s.u rs1 ^^^ s.u rs2)

/-- SHR, ASR and SHL by an amount below the operating width are exact (40_arithmetic.md R126 to R128, R131). -/
def Obligations.ShiftsBelowTheWidth : Prop :=
  ∀ (s : State) (rd rs1 rs2 : RegNum), s.u rs2 < s.opWidth →
    Computes (.shr rd rs1 rs2) s rd (s.u rs1 / 2 ^ s.u rs2) ∧
    Computes (.asr rd rs1 rs2) s rd (s.wrap (s.sgn rs1 / (2 ^ s.u rs2 : Nat))) ∧
    Computes (.shl rd rs1 rs2) s rd (s.u rs1 * 2 ^ s.u rs2 % 2 ^ s.opWidth)

/-- A shift by the operating width or more completes; its result is some function of the operation, the width, the value
and the amount, the same for the register and the immediate forms (40_arithmetic.md R131). -/
def Obligations.OverWidthShiftsAreAFunctionOfTheirOperands : Prop :=
  ∃ f : ShiftOp → Nat → Nat → Nat → Nat, ∀ (s : State) (rd rs1 rs2 : RegNum) (imm : Imm12),
    s.cfg.shiftOver = .any →
      (s.opWidth ≤ s.u rs2 →
        Computes (.shr rd rs1 rs2) s rd (f .shr s.opWidth (s.u rs1) (s.u rs2)) ∧
        Computes (.asr rd rs1 rs2) s rd (f .asr s.opWidth (s.u rs1) (s.u rs2)) ∧
        Computes (.shl rd rs1 rs2) s rd (f .shl s.opWidth (s.u rs1) (s.u rs2))) ∧
      (s.opWidth ≤ s.immU imm →
        Computes (.shri rd rs1 imm) s rd (f .shr s.opWidth (s.u rs1) (s.immU imm)) ∧
        Computes (.asri rd rs1 imm) s rd (f .asr s.opWidth (s.u rs1) (s.immU imm)) ∧
        Computes (.shli rd rs1 imm) s rd (f .shl s.opWidth (s.u rs1) (s.immU imm)))

/-- The two named candidates of `SHIFT_OVER`, for the register forms and the immediate forms: `full` gives 0, or copies of
the sign bit for ASR and ASRI; `masked` shifts by the amount modulo the width (40_arithmetic.md R131;
41_arithmetic_imm.md R151). -/
def Obligations.ShiftOverCandidates : Prop :=
  ∀ (s : State) (rd rs1 rs2 : RegNum) (imm : Imm12),
    (s.opWidth ≤ s.u rs2 →
      (s.cfg.shiftOver = .full →
        Computes (.shr rd rs1 rs2) s rd 0 ∧
        Computes (.asr rd rs1 rs2) s rd (if s.sgn rs1 < 0 then 2 ^ s.opWidth - 1 else 0) ∧
        Computes (.shl rd rs1 rs2) s rd 0) ∧
      (s.cfg.shiftOver = .masked →
        Computes (.shr rd rs1 rs2) s rd (s.u rs1 / 2 ^ (s.u rs2 % s.opWidth)) ∧
        Computes (.asr rd rs1 rs2) s rd (s.wrap (s.sgn rs1 / (2 ^ (s.u rs2 % s.opWidth) : Nat))) ∧
        Computes (.shl rd rs1 rs2) s rd (s.u rs1 * 2 ^ (s.u rs2 % s.opWidth) % 2 ^ s.opWidth))) ∧
    (s.opWidth ≤ s.immU imm →
      (s.cfg.shiftOver = .full →
        Computes (.shri rd rs1 imm) s rd 0 ∧
        Computes (.asri rd rs1 imm) s rd (if s.sgn rs1 < 0 then 2 ^ s.opWidth - 1 else 0) ∧
        Computes (.shli rd rs1 imm) s rd 0) ∧
      (s.cfg.shiftOver = .masked →
        Computes (.shri rd rs1 imm) s rd (s.u rs1 / 2 ^ (s.immU imm % s.opWidth)) ∧
        Computes (.asri rd rs1 imm) s rd (s.wrap (s.sgn rs1 / (2 ^ (s.immU imm % s.opWidth) : Nat))) ∧
        Computes (.shli rd rs1 imm) s rd (s.u rs1 * 2 ^ (s.immU imm % s.opWidth) % 2 ^ s.opWidth)))

/-- CCH and BCH: the carry out of the sum and the borrow out of the difference, as 0 or 1
(40_arithmetic.md R129, R130). -/
def Obligations.CarryAndBorrowChecks : Prop :=
  ∀ (s : State) (rd rs1 rs2 : RegNum),
    Computes (.cch rd rs1 rs2) s rd (if 2 ^ s.opWidth ≤ s.u rs1 + s.u rs2 then 1 else 0) ∧
    Computes (.bch rd rs1 rs2) s rd (if s.u rs1 < s.u rs2 then 1 else 0)

/-- ADDI, ANDI, ORI, XORI, CCHI and BCHI: what the register forms compute, on the sign-extended immediate
(41_arithmetic_imm.md R140 to R144, R148, R149). -/
def Obligations.ImmediateArithmeticResults : Prop :=
  ∀ (s : State) (rd rs1 : RegNum) (imm : Imm12),
    Computes (.addi rd rs1 imm) s rd ((s.u rs1 + s.immU imm) % 2 ^ s.opWidth) ∧
    Computes (.andi rd rs1 imm) s rd (s.u rs1 &&& s.immU imm) ∧
    Computes (.ori rd rs1 imm) s rd (s.u rs1 ||| s.immU imm) ∧
    Computes (.xori rd rs1 imm) s rd (s.u rs1 ^^^ s.immU imm) ∧
    Computes (.cchi rd rs1 imm) s rd (if 2 ^ s.opWidth ≤ s.u rs1 + s.immU imm then 1 else 0) ∧
    Computes (.bchi rd rs1 imm) s rd (if s.u rs1 < s.immU imm then 1 else 0)

/-- SHRI, ASRI and SHLI by an amount below the operating width are exact (41_arithmetic_imm.md R145 to R147). -/
def Obligations.ImmediateShiftsBelowTheWidth : Prop :=
  ∀ (s : State) (rd rs1 : RegNum) (imm : Imm12), s.immU imm < s.opWidth →
    Computes (.shri rd rs1 imm) s rd (s.u rs1 / 2 ^ s.immU imm) ∧
    Computes (.asri rd rs1 imm) s rd (s.wrap (s.sgn rs1 / (2 ^ s.immU imm : Nat))) ∧
    Computes (.shli rd rs1 imm) s rd (s.u rs1 * 2 ^ s.immU imm % 2 ^ s.opWidth)

/-- LUI: the sign-extended immediate times 2^11, modulo 2^W (41_arithmetic_imm.md R150). -/
def Obligations.LuiResult : Prop :=
  ∀ (s : State) (rd : RegNum) (imm : Imm21), Computes (.lui rd imm) s rd (s.immU imm * 2 ^ 11 % 2 ^ s.opWidth)

/-- On SRM64 with Q = 0 the upper half that `WriteW` writes for an instruction is, by the configuration's candidate, copies
of bit 31, zeros, or the old upper half (46_srm64.md R272). -/
def Obligations.NarrowResultUpperHalf : Prop :=
  ∀ (s : State) (i : Instr) (rd : RegNum) (v : BitVec s.opWidth), s.narrow = true → rd ≠ 0 →
    (s.cfg.q0Upper = .sext → ((s.writeW i rd v).reg rd).toInt = (v.toNat : Int).bmod (2 ^ 32)) ∧
    (s.cfg.q0Upper = .zext → ((s.writeW i rd v).reg rd).toNat = v.toNat) ∧
    (s.cfg.q0Upper = .keep →
      ((s.writeW i rd v).reg rd).toNat = (s.reg rd).toNat / 2 ^ 32 * 2 ^ 32 + v.toNat)

/-! ## Multiply and divide -/

/-- MUL, SMUL, MULH and SMULH: the low and the high half of the exact product (48_muldiv.md R310 to R314, R319 (a)). -/
def Obligations.MultiplyResults : Prop :=
  ∀ (s : State) (rd rs1 rs2 : RegNum),
    Computes (.mul rd rs1 rs2) s rd (s.u rs1 * s.u rs2 % 2 ^ s.opWidth) ∧
    Computes (.smul rd rs1 rs2) s rd (s.wrap (s.sgn rs1 * s.sgn rs2)) ∧
    Computes (.mulh rd rs1 rs2) s rd (s.u rs1 * s.u rs2 / 2 ^ s.opWidth) ∧
    Computes (.smulh rd rs1 rs2) s rd (s.wrap (s.sgn rs1 * s.sgn rs2 / (2 ^ s.opWidth : Nat)))

/-- MUL and SMUL return the same value for every pair of operands: after either every register has the same low `W` bits,
every other register and all the rest are the same (48_muldiv.md R319 (a)); the whole next state is the same but where
`Q0_UPPER`, which may depend on the instruction, is left open (46_srm64.md R272). -/
def Obligations.MulAndSmulAgree : Prop :=
  ∀ (s : State) (rd rs1 rs2 : RegNum), ∃ t u,
    exec (.mul rd rs1 rs2) s = .next t ∧ exec (.smul rd rs1 rs2) s = .next u ∧
      (∀ r, (t.reg r).toNat % 2 ^ s.opWidth = (u.reg r).toNat % 2 ^ s.opWidth) ∧
      (∀ r, r ≠ rd → t.reg r = u.reg r) ∧ t.pc = u.pc ∧ SameCsrs t u ∧ SamePlatform t u ∧ SameMemory t u ∧
      t.events = u.events ∧ (s.narrow = false ∨ s.cfg.q0Upper ≠ .any → t = u)

/-- DIV and MOD by a divisor that is not 0 (48_muldiv.md R315, R317, R319 (b)). -/
def Obligations.UnsignedDivisionResults : Prop :=
  ∀ (s : State) (rd rs1 rs2 : RegNum), s.u rs2 ≠ 0 →
    Computes (.div rd rs1 rs2) s rd (s.u rs1 / s.u rs2) ∧
    Computes (.mod rd rs1 rs2) s rd (s.u rs1 % s.u rs2)

/-- SDIV and SMOD but for a divisor of 0 and the one overflow: the quotient is rounded toward zero and the remainder has
the sign of the dividend (48_muldiv.md R316, R318, R319 (b)). -/
def Obligations.SignedDivisionResults : Prop :=
  ∀ (s : State) (rd rs1 rs2 : RegNum), s.u rs2 ≠ 0 →
    ¬(s.u rs1 = 2 ^ (s.opWidth - 1) ∧ s.u rs2 = 2 ^ s.opWidth - 1) →
    Computes (.sdiv rd rs1 rs2) s rd (s.wrap ((s.sgn rs1).tdiv (s.sgn rs2))) ∧
    Computes (.smod rd rs1 rs2) s rd (s.wrap ((s.sgn rs1).tmod (s.sgn rs2)))

/-- A division by 0 completes and does not trap: its result is some function of the operation, the width and the
dividend, or the named candidate's (48_muldiv.md R319 (c)). -/
def Obligations.DivisionByZeroCompletes : Prop :=
  ∃ f : DivOp → Nat → Nat → Nat, ∀ (s : State) (rd rs1 rs2 : RegNum), s.u rs2 = 0 →
    (s.cfg.divZero = .any →
      Computes (.div rd rs1 rs2) s rd (f .div s.opWidth (s.u rs1)) ∧
      Computes (.sdiv rd rs1 rs2) s rd (f .sdiv s.opWidth (s.u rs1)) ∧
      Computes (.mod rd rs1 rs2) s rd (f .mod s.opWidth (s.u rs1)) ∧
      Computes (.smod rd rs1 rs2) s rd (f .smod s.opWidth (s.u rs1))) ∧
    (s.cfg.divZero = .onesAndDividend →
      Computes (.div rd rs1 rs2) s rd (2 ^ s.opWidth - 1) ∧
      Computes (.sdiv rd rs1 rs2) s rd (2 ^ s.opWidth - 1) ∧
      Computes (.mod rd rs1 rs2) s rd (s.u rs1) ∧
      Computes (.smod rd rs1 rs2) s rd (s.u rs1)) ∧
    (s.cfg.divZero = .zero →
      Computes (.div rd rs1 rs2) s rd 0 ∧
      Computes (.sdiv rd rs1 rs2) s rd 0 ∧
      Computes (.mod rd rs1 rs2) s rd 0 ∧
      Computes (.smod rd rs1 rs2) s rd 0)

/-- The signed overflow, the most negative value divided by -1, completes and does not trap: its results are some
function of the operation and the width, or the candidate `wrap` (48_muldiv.md R319 (d)). -/
def Obligations.SignedDivisionOverflowCompletes : Prop :=
  ∃ f : DivOp → Nat → Nat, ∀ (s : State) (rd rs1 rs2 : RegNum),
    s.u rs1 = 2 ^ (s.opWidth - 1) → s.u rs2 = 2 ^ s.opWidth - 1 →
    (s.cfg.divOverflow = .any →
      Computes (.sdiv rd rs1 rs2) s rd (f .sdiv s.opWidth) ∧
      Computes (.smod rd rs1 rs2) s rd (f .smod s.opWidth)) ∧
    (s.cfg.divOverflow = .wrap →
      Computes (.sdiv rd rs1 rs2) s rd (s.u rs1) ∧
      Computes (.smod rd rs1 rs2) s rd 0)

/-! ## Loads and stores -/

/-- The address an access of 1, 2, 4 or 8 bytes uses: the effective address with its low bits forced to 0
(20_memory.md R63, R68). -/
def Obligations.AccessAddressIsForcedAligned : Prop :=
  ∀ (s : State) (rs1 : RegNum) (imm : Imm12) (n : Nat), n = 1 ∨ n = 2 ∨ n = 4 ∨ n = 8 →
    s.accessAddr rs1 imm n = s.eaNat rs1 imm n ∧ n ∣ s.accessAddr rs1 imm n ∧
      s.accessAddr rs1 imm n + n ≤ 2 ^ s.opWidth

/-- The seven loads from ram or rom: the bytes big-endian, extended to the whole register, and nothing else changes but
`pc` (42_load_store.md R164 to R169; 46_srm64.md R281, R282; 20_memory.md R60, R63, R68). -/
def Obligations.LoadResults : Prop :=
  ∀ (s : State) (rd rs1 : RegNum) (imm : Imm12),
    (s.plainMemory (s.eaNat rs1 imm 1) 1 →
      Loads (.ldb rd rs1 imm) s rd (s.memNat (s.eaNat rs1 imm 1) 1) ∧
      Loads (.ldsb rd rs1 imm) s rd
        ((((s.memNat (s.eaNat rs1 imm 1) 1 : Nat) : Int).bmod (2 ^ 8)) % (2 ^ 64 : Nat)).toNat) ∧
    (s.plainMemory (s.eaNat rs1 imm 2) 2 →
      Loads (.ldw rd rs1 imm) s rd (s.memNat (s.eaNat rs1 imm 2) 2) ∧
      Loads (.ldsw rd rs1 imm) s rd
        ((((s.memNat (s.eaNat rs1 imm 2) 2 : Nat) : Int).bmod (2 ^ 16)) % (2 ^ 64 : Nat)).toNat) ∧
    (s.plainMemory (s.eaNat rs1 imm 4) 4 →
      Loads (.ldd rd rs1 imm) s rd (s.memNat (s.eaNat rs1 imm 4) 4) ∧
      Loads (.ldsd rd rs1 imm) s rd
        ((((s.memNat (s.eaNat rs1 imm 4) 4 : Nat) : Int).bmod (2 ^ 32)) % (2 ^ 64 : Nat)).toNat) ∧
    (s.plainMemory (s.eaNat rs1 imm 8) 8 →
      Loads (.ldq rd rs1 imm) s rd (s.memNat (s.eaNat rs1 imm 8) 8))

/-- A load that touches an absent byte is ModelFault(UnmappedAccess) (20_memory.md R66, 42_load_store.md R170). -/
def Obligations.LoadOfAbsentByteFaults : Prop :=
  ∀ (s : State) (i : Instr) (rs1 : RegNum) (imm : Imm12) (n k : Nat), i.isLoad = true →
    i.access = some (rs1, imm, n) → k < n → s.kindAt (s.accessAddr rs1 imm n + k) = .absent →
    exec i s = .fault .unmappedAccess

/-- A load whose bytes all belong to devices completes: the access is one event for the platform that names the bytes in
address order, `x[rd]` is the zero or sign extension of their big-endian number, and memory and every other register are
as before (20_memory.md R67; 42_load_store.md R169). The second clause is the model's choice (log entry 23): a load of
device bytes and bytes of ram or rom takes each byte by its own kind, and its event names the device bytes. -/
def Obligations.DeviceLoadsAreEvents : Prop :=
  ∀ (s : State) (i : Instr) (rd rs1 : RegNum) (imm : Imm12) (n : Nat), i.loadDest = some rd →
    i.access = some (rs1, imm, n) →
    let addr := s.accessAddr rs1 imm n
    ((∀ k < n, s.isDevice (addr + k) = true) →
      ∃ t bytes, CompletesWithEvent i s t false addr n bytes ∧
        bytes.map (·.addr) = (List.range n).map (addr + ·) ∧
        RegLoaded s t rd (i.loadValue n (bytes.foldl (fun acc b => acc * 256 + b.value.toNat) 0)) ∧ SameMemory s t) ∧
    ((∀ k < n, s.kindAt (addr + k) ≠ .absent) → (∃ k < n, s.isDevice (addr + k) = true) →
      (∃ k < n, s.isDevice (addr + k) = false) →
      ∃ t bytes, ∃ f : Nat → Byte, CompletesWithEvent i s t false addr n bytes ∧
        bytes.map (·.addr) = ((List.range n).map (addr + ·)).filter s.isDevice ∧
        (∀ b ∈ bytes, f b.addr = b.value) ∧
        (∀ k < n, s.isDevice (addr + k) = false → f (addr + k) = s.mem.read (addr + k)) ∧
        RegLoaded s t rd (i.loadValue n ((List.range n).foldl (fun acc k => acc * 256 + (f (addr + k)).toNat) 0)) ∧
        SameMemory s t)

/-- STB, STW, STD and STQ to ram: the low bytes of `x[rs2]` big-endian at the forced-aligned address, every other byte
of memory and everything else but `pc` as before (42_load_store.md R160 to R163; 46_srm64.md R280). -/
def Obligations.StoreResults : Prop :=
  ∀ (s : State) (rs1 rs2 : RegNum) (imm : Imm12),
    (s.ramOnly (s.accessAddr rs1 imm 1) 1 → Stores (.stb rs1 rs2 imm) s rs2 (s.accessAddr rs1 imm 1) 1) ∧
    (s.ramOnly (s.accessAddr rs1 imm 2) 2 → Stores (.stw rs1 rs2 imm) s rs2 (s.accessAddr rs1 imm 2) 2) ∧
    (s.ramOnly (s.accessAddr rs1 imm 4) 4 → Stores (.std rs1 rs2 imm) s rs2 (s.accessAddr rs1 imm 4) 4) ∧
    (s.ramOnly (s.accessAddr rs1 imm 8) 8 → Stores (.stq rs1 rs2 imm) s rs2 (s.accessAddr rs1 imm 8) 8)

/-- A store that touches an absent or a rom byte is ModelFault(UnmappedAccess) (20_memory.md R66). -/
def Obligations.StoreToAbsentOrRomFaults : Prop :=
  ∀ (s : State) (i : Instr) (rs1 : RegNum) (imm : Imm12) (n k : Nat), i.isStore = true →
    i.access = some (rs1, imm, n) → k < n →
    (s.kindAt (s.accessAddr rs1 imm n + k) = .absent ∨ s.kindAt (s.accessAddr rs1 imm n + k) = .rom) →
    exec i s = .fault .unmappedAccess

/-- A store whose bytes all belong to devices completes: the bytes are handed to the platform in address order as one
event, each with its device, and memory and every register are as before (20_memory.md R67). The second clause is the
model's choice (log entry 23): of a store to ram and device bytes each byte goes where its kind says, and the event names
the device bytes. -/
def Obligations.DeviceStoresAreEvents : Prop :=
  ∀ (s : State) (i : Instr) (rs1 rs2 : RegNum) (imm : Imm12) (n : Nat), i.storeSource = some rs2 →
    i.access = some (rs1, imm, n) →
    let addr := s.accessAddr rs1 imm n
    ((∀ k < n, s.isDevice (addr + k) = true) →
      ∃ t bytes, CompletesWithEvent i s t true addr n bytes ∧
        bytes.map (·.addr) = (List.range n).map (addr + ·) ∧
        bytes.foldl (fun acc b => acc * 256 + b.value.toNat) 0 = (s.reg rs2).toNat % 2 ^ (8 * n) ∧
        SameRegs s t ∧ SameMemory s t) ∧
    ((∀ k < n, s.kindAt (addr + k) = .ram ∨ s.isDevice (addr + k) = true) →
      (∃ k < n, s.isDevice (addr + k) = true) → (∃ k < n, s.kindAt (addr + k) = .ram) →
      ∃ t bytes, CompletesWithEvent i s t true addr n bytes ∧
        bytes.map (·.addr) = ((List.range n).map (addr + ·)).filter s.isDevice ∧
        (∀ k < n, (∀ b ∈ bytes, b.addr = addr + k → b.value.toNat = (s.reg rs2).toNat / 256 ^ (n - 1 - k) % 256) ∧
          (s.kindAt (addr + k) = .ram →
            (t.mem.read (addr + k)).toNat = (s.reg rs2).toNat / 256 ^ (n - 1 - k) % 256)) ∧
        (∀ a, s.kindAt a ≠ .ram ∨ a < addr ∨ addr + n ≤ a → t.mem.read a = s.mem.read a) ∧ SameRegs s t)

/-- A narrow access sees the corresponding bytes of a wider one: after STD, the byte at the address is the most
significant, and the two bytes from the address plus 2 are the low half (20_memory.md R60, R61). -/
def Obligations.MixedWidthAccess : Prop :=
  ∀ (s t : State) (rs1 rs2 : RegNum) (imm : Imm12), s.ramOnly (s.accessAddr rs1 imm 4) 4 →
    exec (.std rs1 rs2 imm) s = .next t →
    (∀ k < 4, (t.mem.read (s.accessAddr rs1 imm 4 + k)).toNat = (s.reg rs2).toNat / 256 ^ (3 - k) % 256) ∧
    t.memNat (s.accessAddr rs1 imm 4 + 2) 2 = (s.reg rs2).toNat % 2 ^ 16

/-- Only the stores change memory (20_memory.md R65; 40_arithmetic.md R120; 43_jumps.md R180 (g); 45_system.md R250). -/
def Obligations.OnlyStoresChangeMemory : Prop :=
  ∀ (s t : State) (i : Instr), i.isStore = false → exec i s = .next t → t.mem = s.mem

/-! ## Jumps -/

/-- JAL and JALR: the link is `pc + 4`, the target `pc + imm` or `x[rs1] + imm` with the old value of `rs1`, all modulo
2^W (43_jumps.md R180 to R182; 00_scope.md R12). -/
def Obligations.JumpAndLinkResults : Prop :=
  ∀ (s : State) (rd rs1 : RegNum) (off : Imm21) (imm : Imm12),
    CompletesWriting (.jal rd off) s rd s.seqNat ((s.pc.toNat + s.immU off) % 2 ^ s.opWidth) ∧
    CompletesWriting (.jalr rd rs1 imm) s rd s.seqNat ((s.u rs1 + s.immU imm) % 2 ^ s.opWidth)

/-- The six conditional jumps: `pc + imm` modulo 2^W where the condition holds, else `pc + 4`, and nothing else changes
(43_jumps.md R183 to R189). -/
def Obligations.ConditionalJumpResults : Prop :=
  ∀ (s : State) (rs1 rs2 : RegNum) (imm : Imm12),
    let target := (s.pc.toNat + s.immU imm) % 2 ^ s.opWidth
    Jumps (.jeq rs1 rs2 imm) s (if s.u rs1 = s.u rs2 then target else s.seqNat) ∧
    Jumps (.jlt rs1 rs2 imm) s (if s.u rs1 < s.u rs2 then target else s.seqNat) ∧
    Jumps (.jslt rs1 rs2 imm) s (if s.sgn rs1 < s.sgn rs2 then target else s.seqNat) ∧
    Jumps (.jne rs1 rs2 imm) s (if s.u rs1 = s.u rs2 then s.seqNat else target) ∧
    Jumps (.jge rs1 rs2 imm) s (if s.u rs1 < s.u rs2 then s.seqNat else target) ∧
    Jumps (.jsge rs1 rs2 imm) s (if s.sgn rs1 < s.sgn rs2 then s.seqNat else target)

/-! ## System instructions -/

/-- SYSCALL, in either mode: `iraddr`, `spvg`, `pvg` and `pc` as the trap entry says, nothing else changes
(45_system.md R252; 60_exceptions.md R342). -/
def Obligations.SyscallTakesTheTrap : Prop :=
  ∀ s : State, ∃ t, exec .syscall s = .next t ∧ t.iraddr.toNat = s.seqNat ∧ t.spvg = s.pvg ∧ t.pvg = 2 ∧
    t.pc.toNat = s.scvaddr.toNat % 2 ^ s.opWidth ∧
    (∀ n, n ≠ 1 → n ≠ 2 → n ≠ 6 → t.csr n = s.csr n) ∧
    SameRegs s t ∧ SamePlatform s t ∧ SameMemory s t ∧ t.events = s.events

/-- SYSRET in Kernel mode with a legal saved mode: `pc` from `iraddr`, `pvg` from `spvg`, nothing else changes
(45_system.md R253; 60_exceptions.md R353). -/
def Obligations.SysretReturns : Prop :=
  ∀ s : State, 2 ≤ s.pvg.toNat → s.spvg = 0 ∨ s.spvg = 2 →
    ∃ t, exec .sysret s = .next t ∧ t.pc.toNat = s.iraddr.toNat % 2 ^ s.opWidth ∧ t.pvg = s.spvg ∧
      (∀ n, n ≠ 1 → t.csr n = s.csr n) ∧
      SameRegs s t ∧ SamePlatform s t ∧ SameMemory s t ∧ t.events = s.events

/-- SYSRET stops in User mode, and in Kernel mode with a reserved value in `spvg` (45_system.md R253). -/
def Obligations.SysretStops : Prop :=
  ∀ s : State,
    (s.pvg.toNat < 2 → exec .sysret s = .fault .sysretInUserMode) ∧
    (2 ≤ s.pvg.toNat → s.spvg ≠ 0 → s.spvg ≠ 2 → exec .sysret s = .fault .reservedCsrValue)

/-- CSRW in Kernel mode of an allowed value to `csr0` to `csr9`: that CSR holds `zext(x[rs1][W-1:0])` and nothing else
changes but `pc` (45_system.md R254; 46_srm64.md R277; 10_state.md R33, R34). -/
def Obligations.CsrwWritesInKernelMode : Prop :=
  ∀ (s : State) (rs1 : RegNum) (n : CsrNum), 2 ≤ s.pvg.toNat → n.toNat < 10 →
    (n = 0 → s.u rs1 < match s.cfg.xlen with | .x32 => 2 | .x64 => 4) →
    (n = 1 → s.u rs1 = 0 ∨ s.u rs1 = 2) →
    ∃ t, exec (.csrw rs1 n) s = .next t ∧ t.csr n.toNat = some (BitVec.ofNat 64 (s.u rs1)) ∧
      (∀ m, m ≠ n.toNat → t.csr m = s.csr m) ∧ t.pc.toNat = s.seqNat ∧
      SameRegs s t ∧ SamePlatform s t ∧ SameMemory s t ∧ t.events = s.events

/-- CSRW in User mode does nothing but advance `pc`, for every CSR number (45_system.md R254; 10_state.md R42). -/
def Obligations.CsrwInUserModeDoesNothing : Prop :=
  ∀ (s : State) (rs1 : RegNum) (n : CsrNum), s.pvg.toNat < 2 → Jumps (.csrw rs1 n) s s.seqNat

/-- CSRW stops in Kernel mode: `htid`, a reserved bit of `msr`, a reserved value of `pvg`
(45_system.md R254; 10_state.md R33, R34, R41). -/
def Obligations.CsrwStops : Prop :=
  ∀ (s : State) (rs1 : RegNum), 2 ≤ s.pvg.toNat →
    exec (.csrw rs1 10) s = .fault .htidWrite ∧
    ((match s.cfg.xlen with | .x32 => 2 | .x64 => 4) ≤ s.u rs1 →
      exec (.csrw rs1 0) s = .fault .reservedCsrValue) ∧
    (s.u rs1 ≠ 0 → s.u rs1 ≠ 2 → exec (.csrw rs1 1) s = .fault .reservedCsrValue)

/-- CSRR: in Kernel mode the low `W` bits of the CSR, in User mode 0 for every number (45_system.md R255;
46_srm64.md R277). -/
def Obligations.CsrrReads : Prop :=
  ∀ (s : State) (rd : RegNum) (n : CsrNum),
    (2 ≤ s.pvg.toNat → ∀ v, s.csr n.toNat = some v → Computes (.csrr rd n) s rd (v.toNat % 2 ^ s.opWidth)) ∧
    (s.pvg.toNat < 2 → Computes (.csrr rd n) s rd 0)

/-- The CSR numbers 0 to 10 exist; CSRR and CSRW of any other number stop with ModelFault(ReservedCsr) in Kernel mode,
and in User mode CSRR returns 0 and CSRW does nothing (10_state.md R31, R42). -/
def Obligations.ReservedCsrNumbers : Prop :=
  ∀ (s : State) (r : RegNum) (n : CsrNum),
    (n.toNat ≤ 10 → (s.csr n.toNat).isSome = true) ∧
    (11 ≤ n.toNat → 2 ≤ s.pvg.toNat →
      exec (.csrr r n) s = .fault .reservedCsr ∧ exec (.csrw r n) s = .fault .reservedCsr) ∧
    (11 ≤ n.toNat → s.pvg.toNat < 2 → Computes (.csrr r n) s r 0 ∧ Jumps (.csrw r n) s s.seqNat)

/-- In User mode no instruction but SYSCALL changes a CSR, the mode among them (60_exceptions.md R357). -/
def Obligations.UserModeCannotChangeCsrs : Prop :=
  ∀ (s t : State) (i : Instr), s.pvg.toNat < 2 → i ≠ .syscall → exec i s = .next t → SameCsrs s t

/-- No instruction but SYSCALL leaves User mode, and it goes to the address in `scvaddr`; a step that starts in User mode
and ends in Kernel mode goes to the address in `scvaddr`, or in `eivba` by an external interrupt that was pending and
enabled, or in `pcsaddr` where there is a timer, modulo 2^W (60_exceptions.md R340, R346, R350, R356;
70_reset_and_hazards.md R381). -/
def Obligations.UserModeIsLeftThroughTheVector : Prop :=
  (∀ (s t : State) (i : Instr), s.pvg.toNat < 2 → exec i s = .next t → 2 ≤ t.pvg.toNat →
    i = .syscall ∧ t.pc.toNat = s.scvaddr.toNat % 2 ^ s.opWidth) ∧
  (∀ s t : State, s.pvg.toNat < 2 → step s = .next t → 2 ≤ t.pvg.toNat →
    t.pc.toNat = s.scvaddr.toNat % 2 ^ s.opWidth ∨
    (s.msr.toNat % 2 = 1 ∧ s.irq.isSome = true ∧ t.pc.toNat = s.eivba.toNat % 2 ^ s.opWidth) ∨
    (s.cfg.pcsTimer ≠ .absent ∧ t.pc.toNat = s.pcsaddr.toNat % 2 ^ s.opWidth))

/-- In User mode no instruction but SYSCALL reads a CSR other than `msr` (for Q) and `pvg`: with other contents of the
rest it does the same (60_exceptions.md R357; 45_system.md R258). -/
def Obligations.UserModeCannotReadKernelCsrs : Prop :=
  ∀ (s : State) (k : KernelCsrs) (i : Instr), s.pvg.toNat < 2 → i ≠ .syscall →
    (∀ t, exec i s = .next t → exec i (s.withKernelCsrs k) = .next (t.withKernelCsrs k)) ∧
    (∀ f, exec i s = .fault f → exec i (s.withKernelCsrs k) = .fault f)

/-! ## Faults -/

/-- No instruction is refused; a load or a store can only meet UnmappedAccess, SYSRET, CSRW and CSRR only the faults of
their rules, and no other instruction faults (40_arithmetic.md R120; 42_load_store.md R170; 43_jumps.md R180 (g);
48_muldiv.md R310; 60_exceptions.md R341). -/
def Obligations.FaultsOnlyWhereTheRulesSay : Prop :=
  ∀ (s : State) (i : Instr), (∀ r, exec i s ≠ .refused r) ∧
    ∀ f, exec i s = .fault f →
      ((i.isLoad = true ∨ i.isStore = true) ∧ f = .unmappedAccess) ∨
      (i = .sysret ∧ (f = .sysretInUserMode ∨ f = .reservedCsrValue)) ∨
      (∃ rs1 n, i = .csrw rs1 n ∧ (f = .reservedCsr ∨ f = .htidWrite ∨ f = .reservedCsrValue)) ∨
      (∃ rd n, i = .csrr rd n ∧ f = .reservedCsr)

/-! ## Traps and the boundary -/

/-- Trap entry for each of the three causes: `iraddr`, `spvg`, `pvg` and `pc`, and nothing else: no general register, no
cause code, not `msr`, no memory (60_exceptions.md R342, R343, R344). -/
def Obligations.TrapEntrySequence : Prop :=
  ∀ (s : State) (c : TrapCause) (ret : BitVec s.opWidth),
    let t := s.takeTrap c ret
    t.iraddr.toNat = ret.toNat ∧ t.spvg = s.pvg ∧ t.pvg = 2 ∧
      t.pc.toNat = (match c with | .systemCall => s.scvaddr | .external => s.eivba | .contextSwitch => s.pcsaddr).toNat
        % 2 ^ s.opWidth ∧
      (∀ n, n ≠ 1 → n ≠ 2 → n ≠ 6 → t.csr n = s.csr n) ∧
      SameRegs s t ∧ SamePlatform s t ∧ t.mem = s.mem ∧ t.events = s.events

/-- A pending external interrupt is taken at the boundary when `msr` bit 0 is 1, in either mode and with every timer: `eic`
receives the cause, the trap goes through `eivba` with the return address of `IRADDR_EXT`, the request is consumed, the
timer does its part, and nothing else changes (60_exceptions.md R346, R347, R351 (c), R363 (5)). `a` is the address of
the completed instruction. That the addresses are taken at the width this instruction left (R363 (5)) and that the cause
is cut to XLEN bits are the model's reading (log entries 24, 31); so is what the timer holds (log entry 13). -/
def Obligations.ExternalInterruptIsTaken : Prop :=
  ∀ (s : State) (a cause : Word64) (i : EnvInput), s.cfg.extS = true → s.msr.toNat % 2 = 1 → s.irq = some cause →
    let t := s.boundary a i
    t.eic.toNat = cause.toNat % 2 ^ s.cfg.xlen.bits ∧ t.irq = none ∧ TrapEntered s t a s.eivba ∧
      t.pcst.toNat = s.timerValue i ∧ t.timerDue = s.timerDueNow i ∧ BoundaryFrame s t

/-- At a boundary without the System extension, or with the timer absent and no external interrupt that is both pending
and enabled, nothing happens; a request that is not enabled stays pending (60_exceptions.md R346, R350, R363 (5)). -/
def Obligations.QuietBoundaryChangesNothing : Prop :=
  ∀ (s : State) (a : Word64) (i : EnvInput),
    s.cfg.extS = false ∨ (s.cfg.pcsTimer = .absent ∧ (s.msr.toNat % 2 = 0 ∨ s.irq = none)) → s.boundary a i = s

/-- The process context switch timer, where no external interrupt is taken. `countdown`: `pcst` decreases by one, or is
reloaded from `pcstrv` with a request when it would pass zero; with `msr` bit 0 set a request that is due is taken as
Trap(7), and with the bit clear or no request due no trap is taken (60_exceptions.md R350). `platform`: the input may
replace `pcst`, and a request that is due is taken as Trap(7), whatever `msr` bit 0 is (R350; the instantiation is the
model's, log entry 13). That a request not taken stays due, and that two merge into one, is the model's choice (log
entry 13); that the addresses are taken at the width the instruction left is the model's reading (log entry 24). -/
def Obligations.ContextSwitchTimer : Prop :=
  ∀ (s : State) (a : Word64) (i : EnvInput), s.cfg.extS = true → s.msr.toNat % 2 = 0 ∨ s.irq = none →
    let t := s.boundary a i
    let taken := t.timerDue = false ∧ TrapEntered s t a s.pcsaddr
    let notTaken := t.timerDue = s.timerDueNow i ∧ t.pc = s.pc ∧ t.pvg = s.pvg ∧ t.spvg = s.spvg ∧ t.iraddr = s.iraddr
    let frame := t.eic = s.eic ∧ t.irq = s.irq ∧ BoundaryFrame s t
    (s.cfg.pcsTimer = .countdown →
      (s.pcst.toNat ≠ 0 → t.pcst.toNat = s.pcst.toNat - 1) ∧ (s.pcst.toNat = 0 → t.pcst = s.pcstrv) ∧ frame ∧
      (s.msr.toNat % 2 = 1 → (s.timerDue = true ∨ s.pcst.toNat = 0) → taken) ∧
      (s.msr.toNat % 2 = 0 ∨ (s.timerDue = false ∧ s.pcst.toNat ≠ 0) → notTaken)) ∧
    (s.cfg.pcsTimer = .platform →
      (i.timer = none → t.pcst = s.pcst) ∧
      (∀ v, i.timer = some v → t.pcst.toNat = v.toNat % 2 ^ s.cfg.xlen.bits) ∧ frame ∧
      (s.timerDue = true ∨ i.timerRequest = true → taken) ∧
      (s.timerDue = false → i.timerRequest = false → notTaken))

/-- When an external interrupt and a timer request are both due at a boundary, the request from before or made at this very
boundary, the external interrupt is taken and the other stays due; at most one trap is entered
(60_exceptions.md R351 (c), (d)). That the addresses are taken at the width the instruction left is the model's reading
(log entry 24), and so is what makes a request due (log entry 13). -/
def Obligations.ExternalInterruptBeforeTimer : Prop :=
  ∀ (s : State) (a cause : Word64) (i : EnvInput), s.cfg.extS = true → s.cfg.pcsTimer ≠ .absent →
    s.msr.toNat % 2 = 1 → s.irq = some cause → s.timerDueNow i = true →
    let t := s.boundary a i
    TrapEntered s t a s.eivba ∧ t.irq = none ∧ t.timerDue = true

/-- Part (6) of a step: with an input `i` for this step, the input is used up, the external request is kept as the
boundary left it, raised or withdrawn, and of memory only the bytes of ram that the input names may change; registers,
CSRs and `pc` are as the boundary left them (60_exceptions.md R346, R363 (6); 20_memory.md R71). That device bytes hold
no contents is the model's choice (log entry 30), and so is the list of inputs (log entry 14). -/
def Obligations.EnvironmentPartOfAStep : Prop :=
  ∀ (s : State) (a : Word64) (i : EnvInput) (rest : List EnvInput), s.inputs = i :: rest →
    let b := s.boundary a i
    let t := s.finishStep a
    t.inputs = rest ∧
      t.irq = (match i.irq with | .keep => b.irq | .raise cause => some cause | .withdraw => none) ∧
      (∀ x, (s.kindAt x ≠ .ram ∨ ∀ c ∈ i.pokes, c.1 ≠ x) → t.mem.read x = s.mem.read x) ∧
      SameRegs s t ∧ SameCsrs b t ∧ t.pc = b.pc ∧ t.timerDue = b.timerDue ∧ t.events = s.events ∧ t.cfg = s.cfg

/-! ## Reset and invariants -/

/-- After reset, in every configuration: `pc` and `x[0]` are 0, interrupts are disabled and Q is 0, the mode is Kernel,
and `htid` reads HTID (10_state.md R46; 70_reset_and_hazards.md R380, R381). That HTID is cut to XLEN bits (log entry 31)
and that `State.reset` is the reset state of SRM64SM (log entry 1) are the model's choices. -/
def Obligations.ResetState : Prop :=
  ∀ c : Config, (State.resetFor c).pc = 0 ∧ (State.resetFor c).reg 0 = 0 ∧ (State.resetFor c).msr = 0 ∧
    (State.resetFor c).pvg = 2 ∧ (State.resetFor c).htid.toNat = c.htid.toNat % 2 ^ c.xlen.bits ∧
    (State.resetFor c).cfg = c ∧ State.reset = State.resetFor .srm64sm

/-- The state after reset meets the invariant, in every configuration (10_state.md R46); that the registers, CSRs and
memory the source leaves open hold 0 is the model's choice (log entries 2, 3, 5). -/
def Obligations.ResetMeetsTheInvariant : Prop := ∀ c : Config, (State.resetFor c).inv

/-- Every step keeps the canonical form of memory, from every state that has it (10_state.md R44; the form is the
model's choice, log entry 5). -/
def Obligations.StepKeepsMemoryCanonical : Prop :=
  ∀ s t : State, s.mem.wf → step s = .next t → t.mem.wf

/-- Every step keeps the invariant: memory in its canonical form, a legal mode, the reserved bits of `msr` 0, 32-bit
storage on SRM32, and `htid` constant (10_state.md R33, R34, R41; 46_srm64.md R283; the form and the storage are the
model's choice, log entries 5, 18); and no step changes the configuration (00_scope.md R14). -/
def Obligations.StepKeepsTheInvariant : Prop :=
  ∀ s t : State, s.inv → step s = .next t → t.inv ∧ t.cfg = s.cfg

/-- With the register reduction extension no step changes what the model holds for `r16` to `r31` (47_ext_h.md R300, R301;
that it holds something is the model's choice, log entry 19). -/
def Obligations.RemovedRegistersNeverChange : Prop :=
  ∀ (s t : State) (r : RegNum), s.cfg.extH = true → step s = .next t → 16 ≤ r.toNat → t.reg r = s.reg r

/-! ## The 64-bit machine runs the 32-bit machine's code -/

/-- An SRM64 hart with Q = 0, on a platform without devices whose causes and timer values have 32 bits, does what SRM32
does: where SRM32 completes an instruction that it has, the SRM64 hart completes it, and the states still correspond; the
same of a whole step, with fetch, decoding, boundary and environment; and a step that meets a fault on SRM32 meets it on
SRM64, but for a word that SRM32 reserves and a value that SRM32 reserves for a CSR (46_srm64.md R271, R273, R276). -/
def Obligations.Srm64RunsSrm32Code : Prop :=
  (∀ (a b t : State) (i : Instr), Srm32Sim a b → i.needs ≠ .srm64 → exec i a = .next t →
    ∃ u, exec i b = .next u ∧ Srm32Sim t u) ∧
  (∀ a b t : State, Srm32Sim a b → step a = .next t → ∃ u, step b = .next u ∧ Srm32Sim t u) ∧
  (∀ (a b : State) (f : Fault), Srm32Sim a b → step a = .fault f → f ≠ .reservedEncoding → f ≠ .reservedCsrValue →
    step b = .fault f)
end

