-- ==== Sys2Proof/Laws/Encoding.lean ====
section
/-! SUPPORT. The formats: each field of an encoded word is the operand it was made from, a word is made of its fields,
and what the masks of the opcode table leave of an encoded word (30_encoding.md R91 to R95, R99). -/

namespace Sys2Proof

/-! ## `encDi` -/

@[simp] theorem fOpcode_encDi (op : BitVec 6) (rd : RegNum) (imm : Imm21) :
    fOpcode (encDi op rd imm) = op := by
  apply BitVec.eq_of_getLsbD_eq
  intro i hi
  simp only [fOpcode, encDi, BitVec.getLsbD_append, BitVec.getLsbD_extractLsb']
  interval_cases i <;> simp

@[simp] theorem fRd_encDi (op : BitVec 6) (rd : RegNum) (imm : Imm21) :
    fRd (encDi op rd imm) = rd := by
  apply BitVec.eq_of_getLsbD_eq
  intro i hi
  simp only [fRd, encDi, BitVec.getLsbD_append, BitVec.getLsbD_extractLsb']
  interval_cases i <;> simp

@[simp] theorem fImmDi_encDi (op : BitVec 6) (rd : RegNum) (imm : Imm21) :
    fImmDi (encDi op rd imm) = imm := by
  apply BitVec.eq_of_getLsbD_eq
  intro i hi
  simp only [fImmDi, encDi, BitVec.getLsbD_append, BitVec.getLsbD_extractLsb']
  interval_cases i <;> simp

theorem encDi_fields (w : InstrWord) : encDi (fOpcode w) (fRd w) (fImmDi w) = w := by
  apply BitVec.eq_of_getLsbD_eq
  intro i hi
  simp only [encDi, fOpcode, fRd, fImmDi, BitVec.getLsbD_append, BitVec.getLsbD_extractLsb']
  interval_cases i <;> simp

/-! ## `encDss` -/

@[simp] theorem fOpcode_encDss (op : BitVec 6) (rd rs1 : RegNum) (fn4 : BitVec 4) (rs2 : RegNum) (fn7 : BitVec 7) :
    fOpcode (encDss op rd rs1 fn4 rs2 fn7) = op := by
  apply BitVec.eq_of_getLsbD_eq
  intro i hi
  simp only [fOpcode, encDss, BitVec.getLsbD_append, BitVec.getLsbD_extractLsb']
  interval_cases i <;> simp

@[simp] theorem fRd_encDss (op : BitVec 6) (rd rs1 : RegNum) (fn4 : BitVec 4) (rs2 : RegNum) (fn7 : BitVec 7) :
    fRd (encDss op rd rs1 fn4 rs2 fn7) = rd := by
  apply BitVec.eq_of_getLsbD_eq
  intro i hi
  simp only [fRd, encDss, BitVec.getLsbD_append, BitVec.getLsbD_extractLsb']
  interval_cases i <;> simp

@[simp] theorem fRs1_encDss (op : BitVec 6) (rd rs1 : RegNum) (fn4 : BitVec 4) (rs2 : RegNum) (fn7 : BitVec 7) :
    fRs1 (encDss op rd rs1 fn4 rs2 fn7) = rs1 := by
  apply BitVec.eq_of_getLsbD_eq
  intro i hi
  simp only [fRs1, encDss, BitVec.getLsbD_append, BitVec.getLsbD_extractLsb']
  interval_cases i <;> simp

@[simp] theorem fFn4_encDss (op : BitVec 6) (rd rs1 : RegNum) (fn4 : BitVec 4) (rs2 : RegNum) (fn7 : BitVec 7) :
    fFn4 (encDss op rd rs1 fn4 rs2 fn7) = fn4 := by
  apply BitVec.eq_of_getLsbD_eq
  intro i hi
  simp only [fFn4, encDss, BitVec.getLsbD_append, BitVec.getLsbD_extractLsb']
  interval_cases i <;> simp

@[simp] theorem fRs2_encDss (op : BitVec 6) (rd rs1 : RegNum) (fn4 : BitVec 4) (rs2 : RegNum) (fn7 : BitVec 7) :
    fRs2 (encDss op rd rs1 fn4 rs2 fn7) = rs2 := by
  apply BitVec.eq_of_getLsbD_eq
  intro i hi
  simp only [fRs2, encDss, BitVec.getLsbD_append, BitVec.getLsbD_extractLsb']
  interval_cases i <;> simp

@[simp] theorem fFn7_encDss (op : BitVec 6) (rd rs1 : RegNum) (fn4 : BitVec 4) (rs2 : RegNum) (fn7 : BitVec 7) :
    fFn7 (encDss op rd rs1 fn4 rs2 fn7) = fn7 := by
  apply BitVec.eq_of_getLsbD_eq
  intro i hi
  simp only [fFn7, encDss, BitVec.getLsbD_append, BitVec.getLsbD_extractLsb']
  interval_cases i <;> simp

theorem encDss_fields (w : InstrWord) : encDss (fOpcode w) (fRd w) (fRs1 w) (fFn4 w) (fRs2 w) (fFn7 w) = w := by
  apply BitVec.eq_of_getLsbD_eq
  intro i hi
  simp only [encDss, fOpcode, fRd, fRs1, fFn4, fRs2, fFn7, BitVec.getLsbD_append, BitVec.getLsbD_extractLsb']
  interval_cases i <;> simp

/-! ## `encDsi` -/

@[simp] theorem fOpcode_encDsi (op : BitVec 6) (rd rs1 : RegNum) (fn4 : BitVec 4) (imm : Imm12) :
    fOpcode (encDsi op rd rs1 fn4 imm) = op := by
  apply BitVec.eq_of_getLsbD_eq
  intro i hi
  simp only [fOpcode, encDsi, BitVec.getLsbD_append, BitVec.getLsbD_extractLsb']
  interval_cases i <;> simp

@[simp] theorem fRd_encDsi (op : BitVec 6) (rd rs1 : RegNum) (fn4 : BitVec 4) (imm : Imm12) :
    fRd (encDsi op rd rs1 fn4 imm) = rd := by
  apply BitVec.eq_of_getLsbD_eq
  intro i hi
  simp only [fRd, encDsi, BitVec.getLsbD_append, BitVec.getLsbD_extractLsb']
  interval_cases i <;> simp

@[simp] theorem fRs1_encDsi (op : BitVec 6) (rd rs1 : RegNum) (fn4 : BitVec 4) (imm : Imm12) :
    fRs1 (encDsi op rd rs1 fn4 imm) = rs1 := by
  apply BitVec.eq_of_getLsbD_eq
  intro i hi
  simp only [fRs1, encDsi, BitVec.getLsbD_append, BitVec.getLsbD_extractLsb']
  interval_cases i <;> simp

@[simp] theorem fFn4_encDsi (op : BitVec 6) (rd rs1 : RegNum) (fn4 : BitVec 4) (imm : Imm12) :
    fFn4 (encDsi op rd rs1 fn4 imm) = fn4 := by
  apply BitVec.eq_of_getLsbD_eq
  intro i hi
  simp only [fFn4, encDsi, BitVec.getLsbD_append, BitVec.getLsbD_extractLsb']
  interval_cases i <;> simp

@[simp] theorem fImmDsi_encDsi (op : BitVec 6) (rd rs1 : RegNum) (fn4 : BitVec 4) (imm : Imm12) :
    fImmDsi (encDsi op rd rs1 fn4 imm) = imm := by
  apply BitVec.eq_of_getLsbD_eq
  intro i hi
  simp only [fImmDsi, encDsi, BitVec.getLsbD_append, BitVec.getLsbD_extractLsb']
  interval_cases i <;> simp

theorem encDsi_fields (w : InstrWord) : encDsi (fOpcode w) (fRd w) (fRs1 w) (fFn4 w) (fImmDsi w) = w := by
  apply BitVec.eq_of_getLsbD_eq
  intro i hi
  simp only [encDsi, fOpcode, fRd, fRs1, fFn4, fImmDsi, BitVec.getLsbD_append, BitVec.getLsbD_extractLsb']
  interval_cases i <;> simp

/-! ## `encSsi` -/

@[simp] theorem fOpcode_encSsi (op : BitVec 6) (rs1 : RegNum) (fn4 : BitVec 4) (rs2 : RegNum) (imm : Imm12) :
    fOpcode (encSsi op rs1 fn4 rs2 imm) = op := by
  apply BitVec.eq_of_getLsbD_eq
  intro i hi
  simp only [fOpcode, encSsi, BitVec.getLsbD_append, BitVec.getLsbD_extractLsb']
  interval_cases i <;> simp

@[simp] theorem fRs1_encSsi (op : BitVec 6) (rs1 : RegNum) (fn4 : BitVec 4) (rs2 : RegNum) (imm : Imm12) :
    fRs1 (encSsi op rs1 fn4 rs2 imm) = rs1 := by
  apply BitVec.eq_of_getLsbD_eq
  intro i hi
  simp only [fRs1, encSsi, BitVec.getLsbD_append, BitVec.getLsbD_extractLsb']
  interval_cases i <;> simp

@[simp] theorem fFn4_encSsi (op : BitVec 6) (rs1 : RegNum) (fn4 : BitVec 4) (rs2 : RegNum) (imm : Imm12) :
    fFn4 (encSsi op rs1 fn4 rs2 imm) = fn4 := by
  apply BitVec.eq_of_getLsbD_eq
  intro i hi
  simp only [fFn4, encSsi, BitVec.getLsbD_append, BitVec.getLsbD_extractLsb']
  interval_cases i <;> simp

@[simp] theorem fRs2_encSsi (op : BitVec 6) (rs1 : RegNum) (fn4 : BitVec 4) (rs2 : RegNum) (imm : Imm12) :
    fRs2 (encSsi op rs1 fn4 rs2 imm) = rs2 := by
  apply BitVec.eq_of_getLsbD_eq
  intro i hi
  simp only [fRs2, encSsi, BitVec.getLsbD_append, BitVec.getLsbD_extractLsb']
  interval_cases i <;> simp

@[simp] theorem fImmSsi_encSsi (op : BitVec 6) (rs1 : RegNum) (fn4 : BitVec 4) (rs2 : RegNum) (imm : Imm12) :
    fImmSsi (encSsi op rs1 fn4 rs2 imm) = imm := by
  apply BitVec.eq_of_getLsbD_eq
  intro i hi
  simp only [fImmSsi, encSsi, BitVec.getLsbD_append, BitVec.getLsbD_extractLsb']
  interval_cases i <;> simp

theorem encSsi_fields (w : InstrWord) : encSsi (fOpcode w) (fRs1 w) (fFn4 w) (fRs2 w) (fImmSsi w) = w := by
  apply BitVec.eq_of_getLsbD_eq
  intro i hi
  simp only [encSsi, fOpcode, fRs1, fFn4, fRs2, fImmSsi, BitVec.getLsbD_append, BitVec.getLsbD_extractLsb']
  interval_cases i <;> simp

/-! ## What a mask leaves of a word -/

/-- The mask of a DSS row leaves the opcode, `fn4` and `fn7`. -/
theorem encDss_masked (op : BitVec 6) (rd rs1 : RegNum) (fn4 : BitVec 4) (rs2 : RegNum) (fn7 : BitVec 7) :
    encDss op rd rs1 fn4 rs2 fn7 &&& 0xFC00F07F = encDss op 0 0 fn4 0 fn7 := by
  apply BitVec.eq_of_getLsbD_eq
  intro i hi
  simp only [encDss, BitVec.getLsbD_append, BitVec.getLsbD_and]
  interval_cases i <;> simp

/-- The mask of a DSI row leaves the opcode and `fn4`. -/
theorem encDsi_masked (op : BitVec 6) (rd rs1 : RegNum) (fn4 : BitVec 4) (imm : Imm12) :
    encDsi op rd rs1 fn4 imm &&& 0xFC00F000 = encDsi op 0 0 fn4 0 := by
  apply BitVec.eq_of_getLsbD_eq
  intro i hi
  simp only [encDsi, BitVec.getLsbD_append, BitVec.getLsbD_and]
  interval_cases i <;> simp

/-- The mask of an SSI row leaves the opcode and `fn4`. -/
theorem encSsi_masked (op : BitVec 6) (rs1 : RegNum) (fn4 : BitVec 4) (rs2 : RegNum) (imm : Imm12) :
    encSsi op rs1 fn4 rs2 imm &&& 0xFC00F000 = encSsi op 0 fn4 0 0 := by
  apply BitVec.eq_of_getLsbD_eq
  intro i hi
  simp only [encSsi, BitVec.getLsbD_append, BitVec.getLsbD_and, BitVec.getLsbD_extractLsb']
  interval_cases i <;> simp

/-- The mask of a DI row leaves the opcode. -/
theorem encDi_masked (op : BitVec 6) (rd : RegNum) (imm : Imm21) :
    encDi op rd imm &&& 0xFC000000 = encDi op 0 0 := by
  apply BitVec.eq_of_getLsbD_eq
  intro i hi
  simp only [encDi, BitVec.getLsbD_append, BitVec.getLsbD_and]
  interval_cases i <;> simp

/-- The mask of CSRW's row leaves the opcode, `rd` and `fn4`. -/
theorem encDsi_masked_csrw (op : BitVec 6) (rd rs1 : RegNum) (fn4 : BitVec 4) (imm : Imm12) :
    encDsi op rd rs1 fn4 imm &&& 0xFFE0F000 = encDsi op rd 0 fn4 0 := by
  apply BitVec.eq_of_getLsbD_eq
  intro i hi
  simp only [encDsi, BitVec.getLsbD_append, BitVec.getLsbD_and]
  interval_cases i <;> simp

/-- The mask of CSRR's row leaves the opcode, `rs1` and `fn4`. -/
theorem encDsi_masked_csrr (op : BitVec 6) (rd rs1 : RegNum) (fn4 : BitVec 4) (imm : Imm12) :
    encDsi op rd rs1 fn4 imm &&& 0xFC1FF000 = encDsi op 0 rs1 fn4 0 := by
  apply BitVec.eq_of_getLsbD_eq
  intro i hi
  simp only [encDsi, BitVec.getLsbD_append, BitVec.getLsbD_and]
  interval_cases i <;> simp

/-- The two layouts of the CSR number: DSS with `rs2` and `fn7` is DSI with the immediate made of both. -/
theorem encDss_eq_encDsi (op : BitVec 6) (rd rs1 : RegNum) (fn4 : BitVec 4) (rs2 : RegNum) (fn7 : BitVec 7) :
    encDss op rd rs1 fn4 rs2 fn7 = encDsi op rd rs1 fn4 (rs2 ++ fn7) := by
  apply BitVec.eq_of_getLsbD_eq
  intro i hi
  simp only [encDss, encDsi, BitVec.getLsbD_append]
  interval_cases i <;> simp

/-- CSRW and CSRR under either `CSR_FIELD` are words of the format DSI. -/
theorem encCsr_eq (f : CsrField) (rd rs1 : RegNum) (fn4 : BitVec 4) (n : CsrNum) :
    ∃ imm, encCsr f rd rs1 fn4 n = encDsi 0x0A rd rs1 fn4 imm := by
  cases f
  · exact ⟨n, rfl⟩
  · exact ⟨_, encDss_eq_encDsi _ _ _ _ _ _⟩

end Sys2Proof
end

