-- ==== Sys2Proof/Laws/State.lean ====
section
/-! SUPPORT. One lemma per field for each operation that changes the state: what the operation puts there, or that the
field is as before. Later proofs cite these and unfold no record update. -/

namespace Sys2Proof.Machine

/-! ## `setPc` -/

@[simp] theorem State.setPc_cfg (s : State) {w : Nat} (t : BitVec w) : (s.setPc t).cfg = s.cfg := rfl
@[simp] theorem State.setPc_regs (s : State) {w : Nat} (t : BitVec w) : (s.setPc t).regs = s.regs := rfl
@[simp] theorem State.setPc_pc (s : State) {w : Nat} (t : BitVec w) : (s.setPc t).pc = t.setWidth 64 := rfl
@[simp] theorem State.setPc_msr (s : State) {w : Nat} (t : BitVec w) : (s.setPc t).msr = s.msr := rfl
@[simp] theorem State.setPc_pvg (s : State) {w : Nat} (t : BitVec w) : (s.setPc t).pvg = s.pvg := rfl
@[simp] theorem State.setPc_spvg (s : State) {w : Nat} (t : BitVec w) : (s.setPc t).spvg = s.spvg := rfl
@[simp] theorem State.setPc_eivba (s : State) {w : Nat} (t : BitVec w) : (s.setPc t).eivba = s.eivba := rfl
@[simp] theorem State.setPc_eic (s : State) {w : Nat} (t : BitVec w) : (s.setPc t).eic = s.eic := rfl
@[simp] theorem State.setPc_scvaddr (s : State) {w : Nat} (t : BitVec w) : (s.setPc t).scvaddr = s.scvaddr := rfl
@[simp] theorem State.setPc_iraddr (s : State) {w : Nat} (t : BitVec w) : (s.setPc t).iraddr = s.iraddr := rfl
@[simp] theorem State.setPc_pcsaddr (s : State) {w : Nat} (t : BitVec w) : (s.setPc t).pcsaddr = s.pcsaddr := rfl
@[simp] theorem State.setPc_pcstrv (s : State) {w : Nat} (t : BitVec w) : (s.setPc t).pcstrv = s.pcstrv := rfl
@[simp] theorem State.setPc_pcst (s : State) {w : Nat} (t : BitVec w) : (s.setPc t).pcst = s.pcst := rfl
@[simp] theorem State.setPc_htid (s : State) {w : Nat} (t : BitVec w) : (s.setPc t).htid = s.htid := rfl
@[simp] theorem State.setPc_mem (s : State) {w : Nat} (t : BitVec w) : (s.setPc t).mem = s.mem := rfl
@[simp] theorem State.setPc_irq (s : State) {w : Nat} (t : BitVec w) : (s.setPc t).irq = s.irq := rfl
@[simp] theorem State.setPc_timerDue (s : State) {w : Nat} (t : BitVec w) : (s.setPc t).timerDue = s.timerDue := rfl
@[simp] theorem State.setPc_events (s : State) {w : Nat} (t : BitVec w) : (s.setPc t).events = s.events := rfl
@[simp] theorem State.setPc_inputs (s : State) {w : Nat} (t : BitVec w) : (s.setPc t).inputs = s.inputs := rfl
@[simp] theorem State.setPc_draws (s : State) {w : Nat} (t : BitVec w) : (s.setPc t).draws = s.draws := rfl

/-! ## `takeTrap` -/

@[simp] theorem State.takeTrap_cfg (s : State) (c : TrapCause) (ret : BitVec s.opWidth) :
    (s.takeTrap c ret).cfg = s.cfg := rfl
@[simp] theorem State.takeTrap_regs (s : State) (c : TrapCause) (ret : BitVec s.opWidth) :
    (s.takeTrap c ret).regs = s.regs := rfl
@[simp] theorem State.takeTrap_pc (s : State) (c : TrapCause) (ret : BitVec s.opWidth) :
    (s.takeTrap c ret).pc = ((s.vector c).setWidth s.opWidth).setWidth 64 := rfl
@[simp] theorem State.takeTrap_msr (s : State) (c : TrapCause) (ret : BitVec s.opWidth) :
    (s.takeTrap c ret).msr = s.msr := rfl
@[simp] theorem State.takeTrap_pvg (s : State) (c : TrapCause) (ret : BitVec s.opWidth) :
    (s.takeTrap c ret).pvg = 2 := rfl
@[simp] theorem State.takeTrap_spvg (s : State) (c : TrapCause) (ret : BitVec s.opWidth) :
    (s.takeTrap c ret).spvg = s.pvg := rfl
@[simp] theorem State.takeTrap_eivba (s : State) (c : TrapCause) (ret : BitVec s.opWidth) :
    (s.takeTrap c ret).eivba = s.eivba := rfl
@[simp] theorem State.takeTrap_eic (s : State) (c : TrapCause) (ret : BitVec s.opWidth) :
    (s.takeTrap c ret).eic = s.eic := rfl
@[simp] theorem State.takeTrap_scvaddr (s : State) (c : TrapCause) (ret : BitVec s.opWidth) :
    (s.takeTrap c ret).scvaddr = s.scvaddr := rfl
@[simp] theorem State.takeTrap_iraddr (s : State) (c : TrapCause) (ret : BitVec s.opWidth) :
    (s.takeTrap c ret).iraddr = ret.setWidth 64 := rfl
@[simp] theorem State.takeTrap_pcsaddr (s : State) (c : TrapCause) (ret : BitVec s.opWidth) :
    (s.takeTrap c ret).pcsaddr = s.pcsaddr := rfl
@[simp] theorem State.takeTrap_pcstrv (s : State) (c : TrapCause) (ret : BitVec s.opWidth) :
    (s.takeTrap c ret).pcstrv = s.pcstrv := rfl
@[simp] theorem State.takeTrap_pcst (s : State) (c : TrapCause) (ret : BitVec s.opWidth) :
    (s.takeTrap c ret).pcst = s.pcst := rfl
@[simp] theorem State.takeTrap_htid (s : State) (c : TrapCause) (ret : BitVec s.opWidth) :
    (s.takeTrap c ret).htid = s.htid := rfl
@[simp] theorem State.takeTrap_mem (s : State) (c : TrapCause) (ret : BitVec s.opWidth) :
    (s.takeTrap c ret).mem = s.mem := rfl
@[simp] theorem State.takeTrap_irq (s : State) (c : TrapCause) (ret : BitVec s.opWidth) :
    (s.takeTrap c ret).irq = s.irq := rfl
@[simp] theorem State.takeTrap_timerDue (s : State) (c : TrapCause) (ret : BitVec s.opWidth) :
    (s.takeTrap c ret).timerDue = s.timerDue := rfl
@[simp] theorem State.takeTrap_events (s : State) (c : TrapCause) (ret : BitVec s.opWidth) :
    (s.takeTrap c ret).events = s.events := rfl
@[simp] theorem State.takeTrap_inputs (s : State) (c : TrapCause) (ret : BitVec s.opWidth) :
    (s.takeTrap c ret).inputs = s.inputs := rfl
@[simp] theorem State.takeTrap_draws (s : State) (c : TrapCause) (ret : BitVec s.opWidth) :
    (s.takeTrap c ret).draws = s.draws := rfl

/-! ## `trapReturn` -/

@[simp] theorem State.trapReturn_cfg (s : State) : (s.trapReturn).cfg = s.cfg := rfl
@[simp] theorem State.trapReturn_regs (s : State) : (s.trapReturn).regs = s.regs := rfl
@[simp] theorem State.trapReturn_pc (s : State) : (s.trapReturn).pc = (s.iraddr.setWidth s.opWidth).setWidth 64 := rfl
@[simp] theorem State.trapReturn_msr (s : State) : (s.trapReturn).msr = s.msr := rfl
@[simp] theorem State.trapReturn_pvg (s : State) : (s.trapReturn).pvg = s.spvg := rfl
@[simp] theorem State.trapReturn_spvg (s : State) : (s.trapReturn).spvg = s.spvg := rfl
@[simp] theorem State.trapReturn_eivba (s : State) : (s.trapReturn).eivba = s.eivba := rfl
@[simp] theorem State.trapReturn_eic (s : State) : (s.trapReturn).eic = s.eic := rfl
@[simp] theorem State.trapReturn_scvaddr (s : State) : (s.trapReturn).scvaddr = s.scvaddr := rfl
@[simp] theorem State.trapReturn_iraddr (s : State) : (s.trapReturn).iraddr = s.iraddr := rfl
@[simp] theorem State.trapReturn_pcsaddr (s : State) : (s.trapReturn).pcsaddr = s.pcsaddr := rfl
@[simp] theorem State.trapReturn_pcstrv (s : State) : (s.trapReturn).pcstrv = s.pcstrv := rfl
@[simp] theorem State.trapReturn_pcst (s : State) : (s.trapReturn).pcst = s.pcst := rfl
@[simp] theorem State.trapReturn_htid (s : State) : (s.trapReturn).htid = s.htid := rfl
@[simp] theorem State.trapReturn_mem (s : State) : (s.trapReturn).mem = s.mem := rfl
@[simp] theorem State.trapReturn_irq (s : State) : (s.trapReturn).irq = s.irq := rfl
@[simp] theorem State.trapReturn_timerDue (s : State) : (s.trapReturn).timerDue = s.timerDue := rfl
@[simp] theorem State.trapReturn_events (s : State) : (s.trapReturn).events = s.events := rfl
@[simp] theorem State.trapReturn_inputs (s : State) : (s.trapReturn).inputs = s.inputs := rfl
@[simp] theorem State.trapReturn_draws (s : State) : (s.trapReturn).draws = s.draws := rfl

/-! ## `setHalves` -/

@[simp] theorem State.setHalves_cfg (s : State) (rd : RegNum) (hi lo : BitVec 32) :
    (s.setHalves rd hi lo).cfg = s.cfg := by
  unfold State.setHalves; split <;> rfl
@[simp] theorem State.setHalves_pc (s : State) (rd : RegNum) (hi lo : BitVec 32) :
    (s.setHalves rd hi lo).pc = s.pc := by
  unfold State.setHalves; split <;> rfl
@[simp] theorem State.setHalves_msr (s : State) (rd : RegNum) (hi lo : BitVec 32) :
    (s.setHalves rd hi lo).msr = s.msr := by
  unfold State.setHalves; split <;> rfl
@[simp] theorem State.setHalves_pvg (s : State) (rd : RegNum) (hi lo : BitVec 32) :
    (s.setHalves rd hi lo).pvg = s.pvg := by
  unfold State.setHalves; split <;> rfl
@[simp] theorem State.setHalves_spvg (s : State) (rd : RegNum) (hi lo : BitVec 32) :
    (s.setHalves rd hi lo).spvg = s.spvg := by
  unfold State.setHalves; split <;> rfl
@[simp] theorem State.setHalves_eivba (s : State) (rd : RegNum) (hi lo : BitVec 32) :
    (s.setHalves rd hi lo).eivba = s.eivba := by
  unfold State.setHalves; split <;> rfl
@[simp] theorem State.setHalves_eic (s : State) (rd : RegNum) (hi lo : BitVec 32) :
    (s.setHalves rd hi lo).eic = s.eic := by
  unfold State.setHalves; split <;> rfl
@[simp] theorem State.setHalves_scvaddr (s : State) (rd : RegNum) (hi lo : BitVec 32) :
    (s.setHalves rd hi lo).scvaddr = s.scvaddr := by
  unfold State.setHalves; split <;> rfl
@[simp] theorem State.setHalves_iraddr (s : State) (rd : RegNum) (hi lo : BitVec 32) :
    (s.setHalves rd hi lo).iraddr = s.iraddr := by
  unfold State.setHalves; split <;> rfl
@[simp] theorem State.setHalves_pcsaddr (s : State) (rd : RegNum) (hi lo : BitVec 32) :
    (s.setHalves rd hi lo).pcsaddr = s.pcsaddr := by
  unfold State.setHalves; split <;> rfl
@[simp] theorem State.setHalves_pcstrv (s : State) (rd : RegNum) (hi lo : BitVec 32) :
    (s.setHalves rd hi lo).pcstrv = s.pcstrv := by
  unfold State.setHalves; split <;> rfl
@[simp] theorem State.setHalves_pcst (s : State) (rd : RegNum) (hi lo : BitVec 32) :
    (s.setHalves rd hi lo).pcst = s.pcst := by
  unfold State.setHalves; split <;> rfl
@[simp] theorem State.setHalves_htid (s : State) (rd : RegNum) (hi lo : BitVec 32) :
    (s.setHalves rd hi lo).htid = s.htid := by
  unfold State.setHalves; split <;> rfl
@[simp] theorem State.setHalves_mem (s : State) (rd : RegNum) (hi lo : BitVec 32) :
    (s.setHalves rd hi lo).mem = s.mem := by
  unfold State.setHalves; split <;> rfl
@[simp] theorem State.setHalves_irq (s : State) (rd : RegNum) (hi lo : BitVec 32) :
    (s.setHalves rd hi lo).irq = s.irq := by
  unfold State.setHalves; split <;> rfl
@[simp] theorem State.setHalves_timerDue (s : State) (rd : RegNum) (hi lo : BitVec 32) :
    (s.setHalves rd hi lo).timerDue = s.timerDue := by
  unfold State.setHalves; split <;> rfl
@[simp] theorem State.setHalves_events (s : State) (rd : RegNum) (hi lo : BitVec 32) :
    (s.setHalves rd hi lo).events = s.events := by
  unfold State.setHalves; split <;> rfl
@[simp] theorem State.setHalves_inputs (s : State) (rd : RegNum) (hi lo : BitVec 32) :
    (s.setHalves rd hi lo).inputs = s.inputs := by
  unfold State.setHalves; split <;> rfl
@[simp] theorem State.setHalves_draws (s : State) (rd : RegNum) (hi lo : BitVec 32) :
    (s.setHalves rd hi lo).draws = s.draws := by
  unfold State.setHalves; split <;> rfl

/-! ## `setReg` -/

@[simp] theorem State.setReg_cfg (s : State) (rd : RegNum) (v : Word64) : (s.setReg rd v).cfg = s.cfg := by
  unfold State.setReg; split <;> simp
@[simp] theorem State.setReg_pc (s : State) (rd : RegNum) (v : Word64) : (s.setReg rd v).pc = s.pc := by
  unfold State.setReg; split <;> simp
@[simp] theorem State.setReg_msr (s : State) (rd : RegNum) (v : Word64) : (s.setReg rd v).msr = s.msr := by
  unfold State.setReg; split <;> simp
@[simp] theorem State.setReg_pvg (s : State) (rd : RegNum) (v : Word64) : (s.setReg rd v).pvg = s.pvg := by
  unfold State.setReg; split <;> simp
@[simp] theorem State.setReg_spvg (s : State) (rd : RegNum) (v : Word64) : (s.setReg rd v).spvg = s.spvg := by
  unfold State.setReg; split <;> simp
@[simp] theorem State.setReg_eivba (s : State) (rd : RegNum) (v : Word64) : (s.setReg rd v).eivba = s.eivba := by
  unfold State.setReg; split <;> simp
@[simp] theorem State.setReg_eic (s : State) (rd : RegNum) (v : Word64) : (s.setReg rd v).eic = s.eic := by
  unfold State.setReg; split <;> simp
@[simp] theorem State.setReg_scvaddr (s : State) (rd : RegNum) (v : Word64) :
    (s.setReg rd v).scvaddr = s.scvaddr := by
  unfold State.setReg; split <;> simp
@[simp] theorem State.setReg_iraddr (s : State) (rd : RegNum) (v : Word64) : (s.setReg rd v).iraddr = s.iraddr := by
  unfold State.setReg; split <;> simp
@[simp] theorem State.setReg_pcsaddr (s : State) (rd : RegNum) (v : Word64) :
    (s.setReg rd v).pcsaddr = s.pcsaddr := by
  unfold State.setReg; split <;> simp
@[simp] theorem State.setReg_pcstrv (s : State) (rd : RegNum) (v : Word64) : (s.setReg rd v).pcstrv = s.pcstrv := by
  unfold State.setReg; split <;> simp
@[simp] theorem State.setReg_pcst (s : State) (rd : RegNum) (v : Word64) : (s.setReg rd v).pcst = s.pcst := by
  unfold State.setReg; split <;> simp
@[simp] theorem State.setReg_htid (s : State) (rd : RegNum) (v : Word64) : (s.setReg rd v).htid = s.htid := by
  unfold State.setReg; split <;> simp
@[simp] theorem State.setReg_mem (s : State) (rd : RegNum) (v : Word64) : (s.setReg rd v).mem = s.mem := by
  unfold State.setReg; split <;> simp
@[simp] theorem State.setReg_irq (s : State) (rd : RegNum) (v : Word64) : (s.setReg rd v).irq = s.irq := by
  unfold State.setReg; split <;> simp
@[simp] theorem State.setReg_timerDue (s : State) (rd : RegNum) (v : Word64) :
    (s.setReg rd v).timerDue = s.timerDue := by
  unfold State.setReg; split <;> simp
@[simp] theorem State.setReg_events (s : State) (rd : RegNum) (v : Word64) : (s.setReg rd v).events = s.events := by
  unfold State.setReg; split <;> simp
@[simp] theorem State.setReg_inputs (s : State) (rd : RegNum) (v : Word64) : (s.setReg rd v).inputs = s.inputs := by
  unfold State.setReg; split <;> simp
@[simp] theorem State.setReg_draws (s : State) (rd : RegNum) (v : Word64) : (s.setReg rd v).draws = s.draws := by
  unfold State.setReg; split <;> simp

/-! ## `writeW` -/

@[simp] theorem State.writeW_cfg (s : State) (i : Instr) (rd : RegNum) (v : BitVec s.opWidth) :
    (s.writeW i rd v).cfg = s.cfg := by
  unfold State.writeW; split <;> simp_all
@[simp] theorem State.writeW_pc (s : State) (i : Instr) (rd : RegNum) (v : BitVec s.opWidth) :
    (s.writeW i rd v).pc = s.pc := by
  unfold State.writeW; split <;> simp_all
@[simp] theorem State.writeW_msr (s : State) (i : Instr) (rd : RegNum) (v : BitVec s.opWidth) :
    (s.writeW i rd v).msr = s.msr := by
  unfold State.writeW; split <;> simp_all
@[simp] theorem State.writeW_pvg (s : State) (i : Instr) (rd : RegNum) (v : BitVec s.opWidth) :
    (s.writeW i rd v).pvg = s.pvg := by
  unfold State.writeW; split <;> simp_all
@[simp] theorem State.writeW_spvg (s : State) (i : Instr) (rd : RegNum) (v : BitVec s.opWidth) :
    (s.writeW i rd v).spvg = s.spvg := by
  unfold State.writeW; split <;> simp_all
@[simp] theorem State.writeW_eivba (s : State) (i : Instr) (rd : RegNum) (v : BitVec s.opWidth) :
    (s.writeW i rd v).eivba = s.eivba := by
  unfold State.writeW; split <;> simp_all
@[simp] theorem State.writeW_eic (s : State) (i : Instr) (rd : RegNum) (v : BitVec s.opWidth) :
    (s.writeW i rd v).eic = s.eic := by
  unfold State.writeW; split <;> simp_all
@[simp] theorem State.writeW_scvaddr (s : State) (i : Instr) (rd : RegNum) (v : BitVec s.opWidth) :
    (s.writeW i rd v).scvaddr = s.scvaddr := by
  unfold State.writeW; split <;> simp_all
@[simp] theorem State.writeW_iraddr (s : State) (i : Instr) (rd : RegNum) (v : BitVec s.opWidth) :
    (s.writeW i rd v).iraddr = s.iraddr := by
  unfold State.writeW; split <;> simp_all
@[simp] theorem State.writeW_pcsaddr (s : State) (i : Instr) (rd : RegNum) (v : BitVec s.opWidth) :
    (s.writeW i rd v).pcsaddr = s.pcsaddr := by
  unfold State.writeW; split <;> simp_all
@[simp] theorem State.writeW_pcstrv (s : State) (i : Instr) (rd : RegNum) (v : BitVec s.opWidth) :
    (s.writeW i rd v).pcstrv = s.pcstrv := by
  unfold State.writeW; split <;> simp_all
@[simp] theorem State.writeW_pcst (s : State) (i : Instr) (rd : RegNum) (v : BitVec s.opWidth) :
    (s.writeW i rd v).pcst = s.pcst := by
  unfold State.writeW; split <;> simp_all
@[simp] theorem State.writeW_htid (s : State) (i : Instr) (rd : RegNum) (v : BitVec s.opWidth) :
    (s.writeW i rd v).htid = s.htid := by
  unfold State.writeW; split <;> simp_all
@[simp] theorem State.writeW_mem (s : State) (i : Instr) (rd : RegNum) (v : BitVec s.opWidth) :
    (s.writeW i rd v).mem = s.mem := by
  unfold State.writeW; split <;> simp_all
@[simp] theorem State.writeW_irq (s : State) (i : Instr) (rd : RegNum) (v : BitVec s.opWidth) :
    (s.writeW i rd v).irq = s.irq := by
  unfold State.writeW; split <;> simp_all
@[simp] theorem State.writeW_timerDue (s : State) (i : Instr) (rd : RegNum) (v : BitVec s.opWidth) :
    (s.writeW i rd v).timerDue = s.timerDue := by
  unfold State.writeW; split <;> simp_all
@[simp] theorem State.writeW_events (s : State) (i : Instr) (rd : RegNum) (v : BitVec s.opWidth) :
    (s.writeW i rd v).events = s.events := by
  unfold State.writeW; split <;> simp_all
@[simp] theorem State.writeW_inputs (s : State) (i : Instr) (rd : RegNum) (v : BitVec s.opWidth) :
    (s.writeW i rd v).inputs = s.inputs := by
  unfold State.writeW; split <;> simp_all
@[simp] theorem State.writeW_draws (s : State) (i : Instr) (rd : RegNum) (v : BitVec s.opWidth) :
    (s.writeW i rd v).draws = (if s.narrow then s.draws + 1 else s.draws) := by
  unfold State.writeW; split <;> simp_all

/-! ## `writeCells` -/

@[simp] theorem State.writeCells_cfg (s : State) (cells : List Host.Cell) : (s.writeCells cells).cfg = s.cfg := rfl
@[simp] theorem State.writeCells_regs (s : State) (cells : List Host.Cell) : (s.writeCells cells).regs = s.regs := rfl
@[simp] theorem State.writeCells_pc (s : State) (cells : List Host.Cell) : (s.writeCells cells).pc = s.pc := rfl
@[simp] theorem State.writeCells_msr (s : State) (cells : List Host.Cell) : (s.writeCells cells).msr = s.msr := rfl
@[simp] theorem State.writeCells_pvg (s : State) (cells : List Host.Cell) : (s.writeCells cells).pvg = s.pvg := rfl
@[simp] theorem State.writeCells_spvg (s : State) (cells : List Host.Cell) : (s.writeCells cells).spvg = s.spvg := rfl
@[simp] theorem State.writeCells_eivba (s : State) (cells : List Host.Cell) :
    (s.writeCells cells).eivba = s.eivba := rfl
@[simp] theorem State.writeCells_eic (s : State) (cells : List Host.Cell) : (s.writeCells cells).eic = s.eic := rfl
@[simp] theorem State.writeCells_scvaddr (s : State) (cells : List Host.Cell) :
    (s.writeCells cells).scvaddr = s.scvaddr := rfl
@[simp] theorem State.writeCells_iraddr (s : State) (cells : List Host.Cell) :
    (s.writeCells cells).iraddr = s.iraddr := rfl
@[simp] theorem State.writeCells_pcsaddr (s : State) (cells : List Host.Cell) :
    (s.writeCells cells).pcsaddr = s.pcsaddr := rfl
@[simp] theorem State.writeCells_pcstrv (s : State) (cells : List Host.Cell) :
    (s.writeCells cells).pcstrv = s.pcstrv := rfl
@[simp] theorem State.writeCells_pcst (s : State) (cells : List Host.Cell) : (s.writeCells cells).pcst = s.pcst := rfl
@[simp] theorem State.writeCells_htid (s : State) (cells : List Host.Cell) : (s.writeCells cells).htid = s.htid := rfl
@[simp] theorem State.writeCells_mem (s : State) (cells : List Host.Cell) :
    (s.writeCells cells).mem =
      cells.foldl (fun m c => if s.kindAt c.1 = .ram then Memory.write m c.1 c.2 else m) s.mem := rfl
@[simp] theorem State.writeCells_irq (s : State) (cells : List Host.Cell) : (s.writeCells cells).irq = s.irq := rfl
@[simp] theorem State.writeCells_timerDue (s : State) (cells : List Host.Cell) :
    (s.writeCells cells).timerDue = s.timerDue := rfl
@[simp] theorem State.writeCells_events (s : State) (cells : List Host.Cell) :
    (s.writeCells cells).events = s.events := rfl
@[simp] theorem State.writeCells_inputs (s : State) (cells : List Host.Cell) :
    (s.writeCells cells).inputs = s.inputs := rfl
@[simp] theorem State.writeCells_draws (s : State) (cells : List Host.Cell) :
    (s.writeCells cells).draws = s.draws := rfl

/-! ## `noteAccess` -/

@[simp] theorem State.noteAccess_cfg (s : State) (b : Bool) (addr n : Nat) (cells : List Host.Cell) :
    (s.noteAccess b addr n cells).cfg = s.cfg := by
  unfold State.noteAccess; split <;> rfl
@[simp] theorem State.noteAccess_regs (s : State) (b : Bool) (addr n : Nat) (cells : List Host.Cell) :
    (s.noteAccess b addr n cells).regs = s.regs := by
  unfold State.noteAccess; split <;> rfl
@[simp] theorem State.noteAccess_pc (s : State) (b : Bool) (addr n : Nat) (cells : List Host.Cell) :
    (s.noteAccess b addr n cells).pc = s.pc := by
  unfold State.noteAccess; split <;> rfl
@[simp] theorem State.noteAccess_msr (s : State) (b : Bool) (addr n : Nat) (cells : List Host.Cell) :
    (s.noteAccess b addr n cells).msr = s.msr := by
  unfold State.noteAccess; split <;> rfl
@[simp] theorem State.noteAccess_pvg (s : State) (b : Bool) (addr n : Nat) (cells : List Host.Cell) :
    (s.noteAccess b addr n cells).pvg = s.pvg := by
  unfold State.noteAccess; split <;> rfl
@[simp] theorem State.noteAccess_spvg (s : State) (b : Bool) (addr n : Nat) (cells : List Host.Cell) :
    (s.noteAccess b addr n cells).spvg = s.spvg := by
  unfold State.noteAccess; split <;> rfl
@[simp] theorem State.noteAccess_eivba (s : State) (b : Bool) (addr n : Nat) (cells : List Host.Cell) :
    (s.noteAccess b addr n cells).eivba = s.eivba := by
  unfold State.noteAccess; split <;> rfl
@[simp] theorem State.noteAccess_eic (s : State) (b : Bool) (addr n : Nat) (cells : List Host.Cell) :
    (s.noteAccess b addr n cells).eic = s.eic := by
  unfold State.noteAccess; split <;> rfl
@[simp] theorem State.noteAccess_scvaddr (s : State) (b : Bool) (addr n : Nat) (cells : List Host.Cell) :
    (s.noteAccess b addr n cells).scvaddr = s.scvaddr := by
  unfold State.noteAccess; split <;> rfl
@[simp] theorem State.noteAccess_iraddr (s : State) (b : Bool) (addr n : Nat) (cells : List Host.Cell) :
    (s.noteAccess b addr n cells).iraddr = s.iraddr := by
  unfold State.noteAccess; split <;> rfl
@[simp] theorem State.noteAccess_pcsaddr (s : State) (b : Bool) (addr n : Nat) (cells : List Host.Cell) :
    (s.noteAccess b addr n cells).pcsaddr = s.pcsaddr := by
  unfold State.noteAccess; split <;> rfl
@[simp] theorem State.noteAccess_pcstrv (s : State) (b : Bool) (addr n : Nat) (cells : List Host.Cell) :
    (s.noteAccess b addr n cells).pcstrv = s.pcstrv := by
  unfold State.noteAccess; split <;> rfl
@[simp] theorem State.noteAccess_pcst (s : State) (b : Bool) (addr n : Nat) (cells : List Host.Cell) :
    (s.noteAccess b addr n cells).pcst = s.pcst := by
  unfold State.noteAccess; split <;> rfl
@[simp] theorem State.noteAccess_htid (s : State) (b : Bool) (addr n : Nat) (cells : List Host.Cell) :
    (s.noteAccess b addr n cells).htid = s.htid := by
  unfold State.noteAccess; split <;> rfl
@[simp] theorem State.noteAccess_mem (s : State) (b : Bool) (addr n : Nat) (cells : List Host.Cell) :
    (s.noteAccess b addr n cells).mem = s.mem := by
  unfold State.noteAccess; split <;> rfl
@[simp] theorem State.noteAccess_irq (s : State) (b : Bool) (addr n : Nat) (cells : List Host.Cell) :
    (s.noteAccess b addr n cells).irq = s.irq := by
  unfold State.noteAccess; split <;> rfl
@[simp] theorem State.noteAccess_timerDue (s : State) (b : Bool) (addr n : Nat) (cells : List Host.Cell) :
    (s.noteAccess b addr n cells).timerDue = s.timerDue := by
  unfold State.noteAccess; split <;> rfl
@[simp] theorem State.noteAccess_inputs (s : State) (b : Bool) (addr n : Nat) (cells : List Host.Cell) :
    (s.noteAccess b addr n cells).inputs = s.inputs := by
  unfold State.noteAccess; split <;> rfl

/-! ## `setCsr` -/

@[simp] theorem State.setCsr_cfg (s : State) (n : Nat) (v : Word64) : (s.setCsr n v).cfg = s.cfg := by
  unfold State.setCsr; split <;> rfl
@[simp] theorem State.setCsr_regs (s : State) (n : Nat) (v : Word64) : (s.setCsr n v).regs = s.regs := by
  unfold State.setCsr; split <;> rfl
@[simp] theorem State.setCsr_pc (s : State) (n : Nat) (v : Word64) : (s.setCsr n v).pc = s.pc := by
  unfold State.setCsr; split <;> rfl
@[simp] theorem State.setCsr_htid (s : State) (n : Nat) (v : Word64) : (s.setCsr n v).htid = s.htid := by
  unfold State.setCsr; split <;> rfl
@[simp] theorem State.setCsr_mem (s : State) (n : Nat) (v : Word64) : (s.setCsr n v).mem = s.mem := by
  unfold State.setCsr; split <;> rfl
@[simp] theorem State.setCsr_irq (s : State) (n : Nat) (v : Word64) : (s.setCsr n v).irq = s.irq := by
  unfold State.setCsr; split <;> rfl
@[simp] theorem State.setCsr_timerDue (s : State) (n : Nat) (v : Word64) : (s.setCsr n v).timerDue = s.timerDue := by
  unfold State.setCsr; split <;> rfl
@[simp] theorem State.setCsr_events (s : State) (n : Nat) (v : Word64) : (s.setCsr n v).events = s.events := by
  unfold State.setCsr; split <;> rfl
@[simp] theorem State.setCsr_inputs (s : State) (n : Nat) (v : Word64) : (s.setCsr n v).inputs = s.inputs := by
  unfold State.setCsr; split <;> rfl
@[simp] theorem State.setCsr_draws (s : State) (n : Nat) (v : Word64) : (s.setCsr n v).draws = s.draws := by
  unfold State.setCsr; split <;> rfl

/-- What every CSR number reads after `setCsr`: the value at the number written, if it is 0 to 9. -/
theorem State.csr_setCsr (s : State) (n m : Nat) (v : Word64) :
    (s.setCsr n v).csr m = if m = n ∧ n < 10 then some v else s.csr m := by
  by_cases h : n < 10
  · interval_cases n <;> (simp only [State.setCsr, State.csr]; split <;> simp_all)
  · have : s.setCsr n v = s := by
      unfold State.setCsr
      split <;> first | rfl | exact absurd (by decide) h
    simp [this, h]

/-! ## `timerTick` -/

@[simp] theorem State.timerTick_cfg (s : State) (i : EnvInput) : (s.timerTick i).cfg = s.cfg := by
  unfold State.timerTick; split <;> first | rfl | (split <;> rfl)
@[simp] theorem State.timerTick_regs (s : State) (i : EnvInput) : (s.timerTick i).regs = s.regs := by
  unfold State.timerTick; split <;> first | rfl | (split <;> rfl)
@[simp] theorem State.timerTick_pc (s : State) (i : EnvInput) : (s.timerTick i).pc = s.pc := by
  unfold State.timerTick; split <;> first | rfl | (split <;> rfl)
@[simp] theorem State.timerTick_msr (s : State) (i : EnvInput) : (s.timerTick i).msr = s.msr := by
  unfold State.timerTick; split <;> first | rfl | (split <;> rfl)
@[simp] theorem State.timerTick_pvg (s : State) (i : EnvInput) : (s.timerTick i).pvg = s.pvg := by
  unfold State.timerTick; split <;> first | rfl | (split <;> rfl)
@[simp] theorem State.timerTick_spvg (s : State) (i : EnvInput) : (s.timerTick i).spvg = s.spvg := by
  unfold State.timerTick; split <;> first | rfl | (split <;> rfl)
@[simp] theorem State.timerTick_eivba (s : State) (i : EnvInput) : (s.timerTick i).eivba = s.eivba := by
  unfold State.timerTick; split <;> first | rfl | (split <;> rfl)
@[simp] theorem State.timerTick_eic (s : State) (i : EnvInput) : (s.timerTick i).eic = s.eic := by
  unfold State.timerTick; split <;> first | rfl | (split <;> rfl)
@[simp] theorem State.timerTick_scvaddr (s : State) (i : EnvInput) : (s.timerTick i).scvaddr = s.scvaddr := by
  unfold State.timerTick; split <;> first | rfl | (split <;> rfl)
@[simp] theorem State.timerTick_iraddr (s : State) (i : EnvInput) : (s.timerTick i).iraddr = s.iraddr := by
  unfold State.timerTick; split <;> first | rfl | (split <;> rfl)
@[simp] theorem State.timerTick_pcsaddr (s : State) (i : EnvInput) : (s.timerTick i).pcsaddr = s.pcsaddr := by
  unfold State.timerTick; split <;> first | rfl | (split <;> rfl)
@[simp] theorem State.timerTick_pcstrv (s : State) (i : EnvInput) : (s.timerTick i).pcstrv = s.pcstrv := by
  unfold State.timerTick; split <;> first | rfl | (split <;> rfl)
@[simp] theorem State.timerTick_htid (s : State) (i : EnvInput) : (s.timerTick i).htid = s.htid := by
  unfold State.timerTick; split <;> first | rfl | (split <;> rfl)
@[simp] theorem State.timerTick_mem (s : State) (i : EnvInput) : (s.timerTick i).mem = s.mem := by
  unfold State.timerTick; split <;> first | rfl | (split <;> rfl)
@[simp] theorem State.timerTick_irq (s : State) (i : EnvInput) : (s.timerTick i).irq = s.irq := by
  unfold State.timerTick; split <;> first | rfl | (split <;> rfl)
@[simp] theorem State.timerTick_events (s : State) (i : EnvInput) : (s.timerTick i).events = s.events := by
  unfold State.timerTick; split <;> first | rfl | (split <;> rfl)
@[simp] theorem State.timerTick_inputs (s : State) (i : EnvInput) : (s.timerTick i).inputs = s.inputs := by
  unfold State.timerTick; split <;> first | rfl | (split <;> rfl)
@[simp] theorem State.timerTick_draws (s : State) (i : EnvInput) : (s.timerTick i).draws = s.draws := by
  unfold State.timerTick; split <;> first | rfl | (split <;> rfl)

/-! ## `takeExternal` -/

@[simp] theorem State.takeExternal_cfg (s : State) (a cause : Word64) : (s.takeExternal a cause).cfg = s.cfg := rfl
@[simp] theorem State.takeExternal_regs (s : State) (a cause : Word64) : (s.takeExternal a cause).regs = s.regs := rfl
@[simp] theorem State.takeExternal_pc (s : State) (a cause : Word64) :
    (s.takeExternal a cause).pc = (s.eivba.setWidth s.opWidth).setWidth 64 := rfl
@[simp] theorem State.takeExternal_msr (s : State) (a cause : Word64) : (s.takeExternal a cause).msr = s.msr := rfl
@[simp] theorem State.takeExternal_pvg (s : State) (a cause : Word64) : (s.takeExternal a cause).pvg = 2 := rfl
@[simp] theorem State.takeExternal_spvg (s : State) (a cause : Word64) : (s.takeExternal a cause).spvg = s.pvg := rfl
@[simp] theorem State.takeExternal_eivba (s : State) (a cause : Word64) :
    (s.takeExternal a cause).eivba = s.eivba := rfl
@[simp] theorem State.takeExternal_eic (s : State) (a cause : Word64) :
    (s.takeExternal a cause).eic = s.cfg.fit cause := rfl
@[simp] theorem State.takeExternal_scvaddr (s : State) (a cause : Word64) :
    (s.takeExternal a cause).scvaddr = s.scvaddr := rfl
@[simp] theorem State.takeExternal_iraddr (s : State) (a cause : Word64) :
    (s.takeExternal a cause).iraddr = (s.asyncRet a s.pc).setWidth 64 := rfl
@[simp] theorem State.takeExternal_pcsaddr (s : State) (a cause : Word64) :
    (s.takeExternal a cause).pcsaddr = s.pcsaddr := rfl
@[simp] theorem State.takeExternal_pcstrv (s : State) (a cause : Word64) :
    (s.takeExternal a cause).pcstrv = s.pcstrv := rfl
@[simp] theorem State.takeExternal_pcst (s : State) (a cause : Word64) : (s.takeExternal a cause).pcst = s.pcst := rfl
@[simp] theorem State.takeExternal_htid (s : State) (a cause : Word64) : (s.takeExternal a cause).htid = s.htid := rfl
@[simp] theorem State.takeExternal_mem (s : State) (a cause : Word64) : (s.takeExternal a cause).mem = s.mem := rfl
@[simp] theorem State.takeExternal_irq (s : State) (a cause : Word64) : (s.takeExternal a cause).irq = none := rfl
@[simp] theorem State.takeExternal_timerDue (s : State) (a cause : Word64) :
    (s.takeExternal a cause).timerDue = s.timerDue := rfl
@[simp] theorem State.takeExternal_events (s : State) (a cause : Word64) :
    (s.takeExternal a cause).events = s.events := rfl
@[simp] theorem State.takeExternal_inputs (s : State) (a cause : Word64) :
    (s.takeExternal a cause).inputs = s.inputs := rfl
@[simp] theorem State.takeExternal_draws (s : State) (a cause : Word64) :
    (s.takeExternal a cause).draws = s.draws := rfl

/-! ## `takeContextSwitch` -/

@[simp] theorem State.takeContextSwitch_cfg (s : State) (a : Word64) : (s.takeContextSwitch a).cfg = s.cfg := rfl
@[simp] theorem State.takeContextSwitch_regs (s : State) (a : Word64) : (s.takeContextSwitch a).regs = s.regs := rfl
@[simp] theorem State.takeContextSwitch_pc (s : State) (a : Word64) :
    (s.takeContextSwitch a).pc = (s.pcsaddr.setWidth s.opWidth).setWidth 64 := rfl
@[simp] theorem State.takeContextSwitch_msr (s : State) (a : Word64) : (s.takeContextSwitch a).msr = s.msr := rfl
@[simp] theorem State.takeContextSwitch_pvg (s : State) (a : Word64) : (s.takeContextSwitch a).pvg = 2 := rfl
@[simp] theorem State.takeContextSwitch_spvg (s : State) (a : Word64) : (s.takeContextSwitch a).spvg = s.pvg := rfl
@[simp] theorem State.takeContextSwitch_eivba (s : State) (a : Word64) :
    (s.takeContextSwitch a).eivba = s.eivba := rfl
@[simp] theorem State.takeContextSwitch_eic (s : State) (a : Word64) : (s.takeContextSwitch a).eic = s.eic := rfl
@[simp] theorem State.takeContextSwitch_scvaddr (s : State) (a : Word64) :
    (s.takeContextSwitch a).scvaddr = s.scvaddr := rfl
@[simp] theorem State.takeContextSwitch_iraddr (s : State) (a : Word64) :
    (s.takeContextSwitch a).iraddr = (s.asyncRet a s.pc).setWidth 64 := rfl
@[simp] theorem State.takeContextSwitch_pcsaddr (s : State) (a : Word64) :
    (s.takeContextSwitch a).pcsaddr = s.pcsaddr := rfl
@[simp] theorem State.takeContextSwitch_pcstrv (s : State) (a : Word64) :
    (s.takeContextSwitch a).pcstrv = s.pcstrv := rfl
@[simp] theorem State.takeContextSwitch_pcst (s : State) (a : Word64) : (s.takeContextSwitch a).pcst = s.pcst := rfl
@[simp] theorem State.takeContextSwitch_htid (s : State) (a : Word64) : (s.takeContextSwitch a).htid = s.htid := rfl
@[simp] theorem State.takeContextSwitch_mem (s : State) (a : Word64) : (s.takeContextSwitch a).mem = s.mem := rfl
@[simp] theorem State.takeContextSwitch_irq (s : State) (a : Word64) : (s.takeContextSwitch a).irq = s.irq := rfl
@[simp] theorem State.takeContextSwitch_timerDue (s : State) (a : Word64) :
    (s.takeContextSwitch a).timerDue = false := rfl
@[simp] theorem State.takeContextSwitch_events (s : State) (a : Word64) :
    (s.takeContextSwitch a).events = s.events := rfl
@[simp] theorem State.takeContextSwitch_inputs (s : State) (a : Word64) :
    (s.takeContextSwitch a).inputs = s.inputs := rfl
@[simp] theorem State.takeContextSwitch_draws (s : State) (a : Word64) :
    (s.takeContextSwitch a).draws = s.draws := rfl

/-! ## `takeAsync` and `boundary`: what they never change -/

@[simp] theorem State.takeAsync_cfg (s : State) (a : Word64) : (s.takeAsync a).cfg = s.cfg := by
  unfold State.takeAsync; split <;> first | rfl | (split <;> simp)
@[simp] theorem State.takeAsync_regs (s : State) (a : Word64) : (s.takeAsync a).regs = s.regs := by
  unfold State.takeAsync; split <;> first | rfl | (split <;> simp)
@[simp] theorem State.takeAsync_msr (s : State) (a : Word64) : (s.takeAsync a).msr = s.msr := by
  unfold State.takeAsync; split <;> first | rfl | (split <;> simp)
@[simp] theorem State.takeAsync_eivba (s : State) (a : Word64) : (s.takeAsync a).eivba = s.eivba := by
  unfold State.takeAsync; split <;> first | rfl | (split <;> simp)
@[simp] theorem State.takeAsync_scvaddr (s : State) (a : Word64) : (s.takeAsync a).scvaddr = s.scvaddr := by
  unfold State.takeAsync; split <;> first | rfl | (split <;> simp)
@[simp] theorem State.takeAsync_pcsaddr (s : State) (a : Word64) : (s.takeAsync a).pcsaddr = s.pcsaddr := by
  unfold State.takeAsync; split <;> first | rfl | (split <;> simp)
@[simp] theorem State.takeAsync_pcstrv (s : State) (a : Word64) : (s.takeAsync a).pcstrv = s.pcstrv := by
  unfold State.takeAsync; split <;> first | rfl | (split <;> simp)
@[simp] theorem State.takeAsync_pcst (s : State) (a : Word64) : (s.takeAsync a).pcst = s.pcst := by
  unfold State.takeAsync; split <;> first | rfl | (split <;> simp)
@[simp] theorem State.takeAsync_htid (s : State) (a : Word64) : (s.takeAsync a).htid = s.htid := by
  unfold State.takeAsync; split <;> first | rfl | (split <;> simp)
@[simp] theorem State.takeAsync_mem (s : State) (a : Word64) : (s.takeAsync a).mem = s.mem := by
  unfold State.takeAsync; split <;> first | rfl | (split <;> simp)
@[simp] theorem State.takeAsync_events (s : State) (a : Word64) : (s.takeAsync a).events = s.events := by
  unfold State.takeAsync; split <;> first | rfl | (split <;> simp)
@[simp] theorem State.takeAsync_inputs (s : State) (a : Word64) : (s.takeAsync a).inputs = s.inputs := by
  unfold State.takeAsync; split <;> first | rfl | (split <;> simp)
@[simp] theorem State.takeAsync_draws (s : State) (a : Word64) : (s.takeAsync a).draws = s.draws := by
  unfold State.takeAsync; split <;> first | rfl | (split <;> simp)

@[simp] theorem State.boundary_cfg (s : State) (a : Word64) (i : EnvInput) : (s.boundary a i).cfg = s.cfg := by
  unfold State.boundary; split <;> simp
@[simp] theorem State.boundary_regs (s : State) (a : Word64) (i : EnvInput) : (s.boundary a i).regs = s.regs := by
  unfold State.boundary; split <;> simp
@[simp] theorem State.boundary_msr (s : State) (a : Word64) (i : EnvInput) : (s.boundary a i).msr = s.msr := by
  unfold State.boundary; split <;> simp
@[simp] theorem State.boundary_eivba (s : State) (a : Word64) (i : EnvInput) : (s.boundary a i).eivba = s.eivba := by
  unfold State.boundary; split <;> simp
@[simp] theorem State.boundary_scvaddr (s : State) (a : Word64) (i : EnvInput) :
    (s.boundary a i).scvaddr = s.scvaddr := by
  unfold State.boundary; split <;> simp
@[simp] theorem State.boundary_pcsaddr (s : State) (a : Word64) (i : EnvInput) :
    (s.boundary a i).pcsaddr = s.pcsaddr := by
  unfold State.boundary; split <;> simp
@[simp] theorem State.boundary_pcstrv (s : State) (a : Word64) (i : EnvInput) :
    (s.boundary a i).pcstrv = s.pcstrv := by
  unfold State.boundary; split <;> simp
@[simp] theorem State.boundary_htid (s : State) (a : Word64) (i : EnvInput) : (s.boundary a i).htid = s.htid := by
  unfold State.boundary; split <;> simp
@[simp] theorem State.boundary_mem (s : State) (a : Word64) (i : EnvInput) : (s.boundary a i).mem = s.mem := by
  unfold State.boundary; split <;> simp
@[simp] theorem State.boundary_events (s : State) (a : Word64) (i : EnvInput) :
    (s.boundary a i).events = s.events := by
  unfold State.boundary; split <;> simp
@[simp] theorem State.boundary_inputs (s : State) (a : Word64) (i : EnvInput) :
    (s.boundary a i).inputs = s.inputs := by
  unfold State.boundary; split <;> simp
@[simp] theorem State.boundary_draws (s : State) (a : Word64) (i : EnvInput) : (s.boundary a i).draws = s.draws := by
  unfold State.boundary; split <;> simp

/-! ## `applyIrq` -/

@[simp] theorem State.applyIrq_cfg (s : State) (c : IrqChange) : (s.applyIrq c).cfg = s.cfg := by
  cases c <;> rfl
@[simp] theorem State.applyIrq_regs (s : State) (c : IrqChange) : (s.applyIrq c).regs = s.regs := by
  cases c <;> rfl
@[simp] theorem State.applyIrq_pc (s : State) (c : IrqChange) : (s.applyIrq c).pc = s.pc := by
  cases c <;> rfl
@[simp] theorem State.applyIrq_msr (s : State) (c : IrqChange) : (s.applyIrq c).msr = s.msr := by
  cases c <;> rfl
@[simp] theorem State.applyIrq_pvg (s : State) (c : IrqChange) : (s.applyIrq c).pvg = s.pvg := by
  cases c <;> rfl
@[simp] theorem State.applyIrq_spvg (s : State) (c : IrqChange) : (s.applyIrq c).spvg = s.spvg := by
  cases c <;> rfl
@[simp] theorem State.applyIrq_eivba (s : State) (c : IrqChange) : (s.applyIrq c).eivba = s.eivba := by
  cases c <;> rfl
@[simp] theorem State.applyIrq_eic (s : State) (c : IrqChange) : (s.applyIrq c).eic = s.eic := by
  cases c <;> rfl
@[simp] theorem State.applyIrq_scvaddr (s : State) (c : IrqChange) : (s.applyIrq c).scvaddr = s.scvaddr := by
  cases c <;> rfl
@[simp] theorem State.applyIrq_iraddr (s : State) (c : IrqChange) : (s.applyIrq c).iraddr = s.iraddr := by
  cases c <;> rfl
@[simp] theorem State.applyIrq_pcsaddr (s : State) (c : IrqChange) : (s.applyIrq c).pcsaddr = s.pcsaddr := by
  cases c <;> rfl
@[simp] theorem State.applyIrq_pcstrv (s : State) (c : IrqChange) : (s.applyIrq c).pcstrv = s.pcstrv := by
  cases c <;> rfl
@[simp] theorem State.applyIrq_pcst (s : State) (c : IrqChange) : (s.applyIrq c).pcst = s.pcst := by
  cases c <;> rfl
@[simp] theorem State.applyIrq_htid (s : State) (c : IrqChange) : (s.applyIrq c).htid = s.htid := by
  cases c <;> rfl
@[simp] theorem State.applyIrq_mem (s : State) (c : IrqChange) : (s.applyIrq c).mem = s.mem := by
  cases c <;> rfl
@[simp] theorem State.applyIrq_irq (s : State) (c : IrqChange) :
    (s.applyIrq c).irq = (match c with | .keep => s.irq | .raise cause => some cause | .withdraw => none) := by
  cases c <;> rfl
@[simp] theorem State.applyIrq_timerDue (s : State) (c : IrqChange) : (s.applyIrq c).timerDue = s.timerDue := by
  cases c <;> rfl
@[simp] theorem State.applyIrq_events (s : State) (c : IrqChange) : (s.applyIrq c).events = s.events := by
  cases c <;> rfl
@[simp] theorem State.applyIrq_inputs (s : State) (c : IrqChange) : (s.applyIrq c).inputs = s.inputs := by
  cases c <;> rfl
@[simp] theorem State.applyIrq_draws (s : State) (c : IrqChange) : (s.applyIrq c).draws = s.draws := by
  cases c <;> rfl

/-! ## `applyPokes` -/

@[simp] theorem State.applyPokes_cfg (s : State) (pokes : List Host.Cell) : (s.applyPokes pokes).cfg = s.cfg := rfl
@[simp] theorem State.applyPokes_regs (s : State) (pokes : List Host.Cell) : (s.applyPokes pokes).regs = s.regs := rfl
@[simp] theorem State.applyPokes_pc (s : State) (pokes : List Host.Cell) : (s.applyPokes pokes).pc = s.pc := rfl
@[simp] theorem State.applyPokes_msr (s : State) (pokes : List Host.Cell) : (s.applyPokes pokes).msr = s.msr := rfl
@[simp] theorem State.applyPokes_pvg (s : State) (pokes : List Host.Cell) : (s.applyPokes pokes).pvg = s.pvg := rfl
@[simp] theorem State.applyPokes_spvg (s : State) (pokes : List Host.Cell) : (s.applyPokes pokes).spvg = s.spvg := rfl
@[simp] theorem State.applyPokes_eivba (s : State) (pokes : List Host.Cell) :
    (s.applyPokes pokes).eivba = s.eivba := rfl
@[simp] theorem State.applyPokes_eic (s : State) (pokes : List Host.Cell) : (s.applyPokes pokes).eic = s.eic := rfl
@[simp] theorem State.applyPokes_scvaddr (s : State) (pokes : List Host.Cell) :
    (s.applyPokes pokes).scvaddr = s.scvaddr := rfl
@[simp] theorem State.applyPokes_iraddr (s : State) (pokes : List Host.Cell) :
    (s.applyPokes pokes).iraddr = s.iraddr := rfl
@[simp] theorem State.applyPokes_pcsaddr (s : State) (pokes : List Host.Cell) :
    (s.applyPokes pokes).pcsaddr = s.pcsaddr := rfl
@[simp] theorem State.applyPokes_pcstrv (s : State) (pokes : List Host.Cell) :
    (s.applyPokes pokes).pcstrv = s.pcstrv := rfl
@[simp] theorem State.applyPokes_pcst (s : State) (pokes : List Host.Cell) : (s.applyPokes pokes).pcst = s.pcst := rfl
@[simp] theorem State.applyPokes_htid (s : State) (pokes : List Host.Cell) : (s.applyPokes pokes).htid = s.htid := rfl
@[simp] theorem State.applyPokes_mem (s : State) (pokes : List Host.Cell) :
    (s.applyPokes pokes).mem = (s.writeCells pokes).mem := rfl
@[simp] theorem State.applyPokes_irq (s : State) (pokes : List Host.Cell) : (s.applyPokes pokes).irq = s.irq := rfl
@[simp] theorem State.applyPokes_timerDue (s : State) (pokes : List Host.Cell) :
    (s.applyPokes pokes).timerDue = s.timerDue := rfl
@[simp] theorem State.applyPokes_events (s : State) (pokes : List Host.Cell) :
    (s.applyPokes pokes).events = s.events := rfl
@[simp] theorem State.applyPokes_inputs (s : State) (pokes : List Host.Cell) :
    (s.applyPokes pokes).inputs = s.inputs := rfl
@[simp] theorem State.applyPokes_draws (s : State) (pokes : List Host.Cell) :
    (s.applyPokes pokes).draws = s.draws := rfl

/-! ## `finishStep`: the boundary, then the environment -/

@[simp] theorem State.finishStep_cfg (s : State) (a : Word64) : (s.finishStep a).cfg = s.cfg := by
  simp [State.finishStep]
@[simp] theorem State.finishStep_regs (s : State) (a : Word64) : (s.finishStep a).regs = s.regs := by
  simp [State.finishStep]
@[simp] theorem State.finishStep_pc (s : State) (a : Word64) : (s.finishStep a).pc = (s.boundary a s.input).pc := by
  simp [State.finishStep]
@[simp] theorem State.finishStep_msr (s : State) (a : Word64) : (s.finishStep a).msr = s.msr := by
  simp [State.finishStep]
@[simp] theorem State.finishStep_pvg (s : State) (a : Word64) :
    (s.finishStep a).pvg = (s.boundary a s.input).pvg := by
  simp [State.finishStep]
@[simp] theorem State.finishStep_spvg (s : State) (a : Word64) :
    (s.finishStep a).spvg = (s.boundary a s.input).spvg := by
  simp [State.finishStep]
@[simp] theorem State.finishStep_eivba (s : State) (a : Word64) : (s.finishStep a).eivba = s.eivba := by
  simp [State.finishStep]
@[simp] theorem State.finishStep_eic (s : State) (a : Word64) :
    (s.finishStep a).eic = (s.boundary a s.input).eic := by
  simp [State.finishStep]
@[simp] theorem State.finishStep_scvaddr (s : State) (a : Word64) : (s.finishStep a).scvaddr = s.scvaddr := by
  simp [State.finishStep]
@[simp] theorem State.finishStep_iraddr (s : State) (a : Word64) :
    (s.finishStep a).iraddr = (s.boundary a s.input).iraddr := by
  simp [State.finishStep]
@[simp] theorem State.finishStep_pcsaddr (s : State) (a : Word64) : (s.finishStep a).pcsaddr = s.pcsaddr := by
  simp [State.finishStep]
@[simp] theorem State.finishStep_pcstrv (s : State) (a : Word64) : (s.finishStep a).pcstrv = s.pcstrv := by
  simp [State.finishStep]
@[simp] theorem State.finishStep_pcst (s : State) (a : Word64) :
    (s.finishStep a).pcst = (s.boundary a s.input).pcst := by
  simp [State.finishStep]
@[simp] theorem State.finishStep_htid (s : State) (a : Word64) : (s.finishStep a).htid = s.htid := by
  simp [State.finishStep]
/-- Two states with the same configuration and memory have the same memory after `writeCells`. -/
theorem State.writeCells_mem_congr {s t : State} (hc : t.cfg = s.cfg) (hm : t.mem = s.mem) (cells : List Host.Cell) :
    (t.writeCells cells).mem = (s.writeCells cells).mem := by
  have hk : t.kindAt = s.kindAt := by funext x; simp [State.kindAt, hc]
  unfold State.writeCells
  dsimp only
  rw [hk, hm]

@[simp] theorem State.finishStep_mem (s : State) (a : Word64) :
    (s.finishStep a).mem = (s.applyPokes s.input.pokes).mem :=
  State.writeCells_mem_congr (by simp) (by simp) _

@[simp] theorem State.finishStep_irq (s : State) (a : Word64) :
    (s.finishStep a).irq = ((s.boundary a s.input).applyIrq s.input.irq).irq := by
  simp [State.finishStep]
@[simp] theorem State.finishStep_timerDue (s : State) (a : Word64) :
    (s.finishStep a).timerDue = (s.boundary a s.input).timerDue := by
  simp [State.finishStep]
@[simp] theorem State.finishStep_events (s : State) (a : Word64) : (s.finishStep a).events = s.events := by
  simp [State.finishStep]
@[simp] theorem State.finishStep_inputs (s : State) (a : Word64) : (s.finishStep a).inputs = s.inputs.tail := rfl
@[simp] theorem State.finishStep_draws (s : State) (a : Word64) : (s.finishStep a).draws = s.draws := by
  simp [State.finishStep]

/-! ## `withFetchWord` -/

@[simp] theorem State.withFetchWord_cfg (s : State) (nbits w : Nat) : (s.withFetchWord nbits w).cfg = s.cfg := rfl
@[simp] theorem State.withFetchWord_regs (s : State) (nbits w : Nat) : (s.withFetchWord nbits w).regs = s.regs := rfl
@[simp] theorem State.withFetchWord_pc (s : State) (nbits w : Nat) : (s.withFetchWord nbits w).pc = s.pc := rfl
@[simp] theorem State.withFetchWord_msr (s : State) (nbits w : Nat) : (s.withFetchWord nbits w).msr = s.msr := rfl
@[simp] theorem State.withFetchWord_pvg (s : State) (nbits w : Nat) : (s.withFetchWord nbits w).pvg = s.pvg := rfl
@[simp] theorem State.withFetchWord_spvg (s : State) (nbits w : Nat) : (s.withFetchWord nbits w).spvg = s.spvg := rfl
@[simp] theorem State.withFetchWord_eivba (s : State) (nbits w : Nat) :
    (s.withFetchWord nbits w).eivba = s.eivba := rfl
@[simp] theorem State.withFetchWord_eic (s : State) (nbits w : Nat) : (s.withFetchWord nbits w).eic = s.eic := rfl
@[simp] theorem State.withFetchWord_scvaddr (s : State) (nbits w : Nat) :
    (s.withFetchWord nbits w).scvaddr = s.scvaddr := rfl
@[simp] theorem State.withFetchWord_iraddr (s : State) (nbits w : Nat) :
    (s.withFetchWord nbits w).iraddr = s.iraddr := rfl
@[simp] theorem State.withFetchWord_pcsaddr (s : State) (nbits w : Nat) :
    (s.withFetchWord nbits w).pcsaddr = s.pcsaddr := rfl
@[simp] theorem State.withFetchWord_pcstrv (s : State) (nbits w : Nat) :
    (s.withFetchWord nbits w).pcstrv = s.pcstrv := rfl
@[simp] theorem State.withFetchWord_pcst (s : State) (nbits w : Nat) : (s.withFetchWord nbits w).pcst = s.pcst := rfl
@[simp] theorem State.withFetchWord_htid (s : State) (nbits w : Nat) : (s.withFetchWord nbits w).htid = s.htid := rfl
@[simp] theorem State.withFetchWord_irq (s : State) (nbits w : Nat) : (s.withFetchWord nbits w).irq = s.irq := rfl
@[simp] theorem State.withFetchWord_timerDue (s : State) (nbits w : Nat) :
    (s.withFetchWord nbits w).timerDue = s.timerDue := rfl
@[simp] theorem State.withFetchWord_events (s : State) (nbits w : Nat) :
    (s.withFetchWord nbits w).events = s.events := rfl
@[simp] theorem State.withFetchWord_inputs (s : State) (nbits w : Nat) :
    (s.withFetchWord nbits w).inputs = s.inputs := rfl
@[simp] theorem State.withFetchWord_draws (s : State) (nbits w : Nat) :
    (s.withFetchWord nbits w).draws = s.draws := rfl

/-! ## The operating width depends on the configuration and `msr` alone -/

theorem State.opWidth_congr {s t : State} (hc : t.cfg = s.cfg) (hm : t.msr = s.msr) : t.opWidth = s.opWidth := by
  simp [State.opWidth, State.q, hc, hm]

theorem State.narrow_congr {s t : State} (hc : t.cfg = s.cfg) (hm : t.msr = s.msr) : t.narrow = s.narrow := by
  simp [State.narrow, State.q, hc, hm]

@[simp] theorem State.setPc_opWidth (s : State) {w : Nat} (t : BitVec w) :
    (s.setPc t).opWidth = s.opWidth :=
  State.opWidth_congr (by simp) (by simp)
@[simp] theorem State.takeTrap_opWidth (s : State) (c : TrapCause) (ret : BitVec s.opWidth) :
    (s.takeTrap c ret).opWidth = s.opWidth :=
  State.opWidth_congr (by simp) (by simp)
@[simp] theorem State.trapReturn_opWidth (s : State) :
    (s.trapReturn).opWidth = s.opWidth :=
  State.opWidth_congr (by simp) (by simp)
@[simp] theorem State.setReg_opWidth (s : State) (rd : RegNum) (v : Word64) :
    (s.setReg rd v).opWidth = s.opWidth :=
  State.opWidth_congr (by simp) (by simp)
@[simp] theorem State.writeW_opWidth (s : State) (i : Instr) (rd : RegNum) (v : BitVec s.opWidth) :
    (s.writeW i rd v).opWidth = s.opWidth :=
  State.opWidth_congr (by simp) (by simp)
@[simp] theorem State.writeCells_opWidth (s : State) (cells : List Host.Cell) :
    (s.writeCells cells).opWidth = s.opWidth :=
  State.opWidth_congr (by simp) (by simp)
@[simp] theorem State.noteAccess_opWidth (s : State) (b : Bool) (addr n : Nat) (cells : List Host.Cell) :
    (s.noteAccess b addr n cells).opWidth = s.opWidth :=
  State.opWidth_congr (by simp) (by simp)
@[simp] theorem State.takeAsync_opWidth (s : State) (a : Word64) :
    (s.takeAsync a).opWidth = s.opWidth :=
  State.opWidth_congr (by simp) (by simp)
@[simp] theorem State.timerTick_opWidth (s : State) (i : EnvInput) :
    (s.timerTick i).opWidth = s.opWidth :=
  State.opWidth_congr (by simp) (by simp)
@[simp] theorem State.finishStep_opWidth (s : State) (a : Word64) :
    (s.finishStep a).opWidth = s.opWidth :=
  State.opWidth_congr (by simp) (by simp)

/-- The width is 32 or 64. -/
theorem State.opWidth_eq (s : State) : s.opWidth = 32 ∨ s.opWidth = 64 := by
  unfold State.opWidth
  split
  · exact .inl rfl
  · split
    · exact .inr rfl
    · exact .inl rfl

/-- An SRM64 hart with Q = 0 works at 32 bits. -/
theorem State.opWidth_of_narrow {s : State} (h : s.narrow = true) : s.opWidth = 32 := by
  unfold State.narrow at h
  unfold State.opWidth
  split at h <;> simp_all

/-- Otherwise the operating width is the register's. -/
theorem State.opWidth_of_wide {s : State} (h : s.narrow = false) : s.opWidth = s.cfg.xlen.bits := by
  unfold State.narrow at h
  unfold State.opWidth
  split at h <;> simp_all [Xlen.bits]

/-- The operating width is never above the register's. -/
theorem State.opWidth_le_bits (s : State) : s.opWidth ≤ s.cfg.xlen.bits := by
  unfold State.opWidth
  split
  · simp_all [Xlen.bits]
  · split <;> simp_all [Xlen.bits]

/-! ## The state after reset -/

@[simp] theorem State.resetFor_cfg (c : Config) : (State.resetFor c).cfg = c := rfl
@[simp] theorem State.resetFor_regs (c : Config) : (State.resetFor c).regs = Vector.replicate 32 ⟨0, 0⟩ := rfl
@[simp] theorem State.resetFor_pc (c : Config) : (State.resetFor c).pc = 0 := rfl
@[simp] theorem State.resetFor_msr (c : Config) : (State.resetFor c).msr = 0 := rfl
@[simp] theorem State.resetFor_pvg (c : Config) : (State.resetFor c).pvg = 2 := rfl
@[simp] theorem State.resetFor_spvg (c : Config) : (State.resetFor c).spvg = 0 := rfl
@[simp] theorem State.resetFor_eivba (c : Config) : (State.resetFor c).eivba = 0 := rfl
@[simp] theorem State.resetFor_eic (c : Config) : (State.resetFor c).eic = 0 := rfl
@[simp] theorem State.resetFor_scvaddr (c : Config) : (State.resetFor c).scvaddr = 0 := rfl
@[simp] theorem State.resetFor_iraddr (c : Config) : (State.resetFor c).iraddr = 0 := rfl
@[simp] theorem State.resetFor_pcsaddr (c : Config) : (State.resetFor c).pcsaddr = 0 := rfl
@[simp] theorem State.resetFor_pcstrv (c : Config) : (State.resetFor c).pcstrv = 0 := rfl
@[simp] theorem State.resetFor_pcst (c : Config) : (State.resetFor c).pcst = 0 := rfl
@[simp] theorem State.resetFor_htid (c : Config) : (State.resetFor c).htid = c.fit c.htid := rfl
@[simp] theorem State.resetFor_mem (c : Config) : (State.resetFor c).mem = [] := rfl
@[simp] theorem State.resetFor_irq (c : Config) : (State.resetFor c).irq = none := rfl
@[simp] theorem State.resetFor_timerDue (c : Config) : (State.resetFor c).timerDue = false := rfl
@[simp] theorem State.resetFor_events (c : Config) : (State.resetFor c).events = [] := rfl
@[simp] theorem State.resetFor_inputs (c : Config) : (State.resetFor c).inputs = [] := rfl
@[simp] theorem State.resetFor_draws (c : Config) : (State.resetFor c).draws = 0 := rfl

end Sys2Proof.Machine
end

