-- ==== Sys2Proof/Laws/Memory.lean ====
section
/-! SUPPORT. Memory: what a byte reads after a write, and that every memory operation keeps the canonical form. -/

namespace Sys2Proof.Machine

/-! ## One byte -/

theorem Memory.read_filter_ne (m : Memory) (a b : Nat) :
    Memory.read (m.filter fun c => decide (c.1 ≠ a)) b = if b = a then Memory.unlisted else Memory.read m b := by
  induction m with
  | nil => simp [Memory.read]
  | cons c rest ih =>
    by_cases hc : c.1 = a
    · by_cases hb : b = a
      · simpa [List.filter_cons, hc, hb] using ih
      · have : ¬ a = b := fun e => hb e.symm
        simpa [List.filter_cons, hc, hb, Memory.read, this] using ih
    · by_cases hb : b = a
      · subst hb; simpa [List.filter_cons, hc, Memory.read] using ih
      · simp only [hb, if_false, ne_eq, decide_not] at ih
        simp [hc, hb, Memory.read, ih]

theorem Memory.read_insert (m : Memory) (a b : Nat) (v : Byte) (h : ∀ c ∈ m, c.1 ≠ a) :
    Memory.read (Memory.insert m a v) b = if b = a then v else Memory.read m b := by
  induction m with
  | nil =>
    by_cases hb : b = a
    · simp [Memory.insert, Memory.read, hb]
    · simp [Memory.insert, Memory.read, hb, Ne.symm hb]
  | cons c rest ih =>
    have hc : c.1 ≠ a := h c (by simp)
    have ih := ih fun d hd => h d (by simp [hd])
    unfold Memory.insert
    split
    · by_cases hb : b = a
      · simp [Memory.read, hb]
      · simp [Memory.read, hb, Ne.symm hb]
    · by_cases hb : b = a
      · subst hb; simpa [Memory.read, hc] using ih
      · simp only [hb, if_false] at ih
        simp [Memory.read, ih, hb]

/-- A byte reads what was last written to it, and a write leaves every other byte alone. -/
theorem Memory.read_write (m : Memory) (a b : Nat) (v : Byte) :
    Memory.read (Memory.write m a v) b = if b = a then v else Memory.read m b := by
  unfold Memory.write
  dsimp only
  split
  · rename_i hv
    rw [Memory.read_filter_ne, hv]
  · rw [Memory.read_insert _ _ _ _ (by simp), Memory.read_filter_ne]
    split <;> simp_all

/-! ## The canonical form -/

theorem Memory.mem_insert {m : Memory} {a : Nat} {v : Byte} {c : Host.Cell} (h : c ∈ Memory.insert m a v) :
    c = (a, v) ∨ c ∈ m := by
  induction m with
  | nil => simpa [Memory.insert] using h
  | cons d rest ih =>
    unfold Memory.insert at h
    split at h
    · simpa using h
    · rcases List.mem_cons.mp h with e | e
      · exact .inr (by simp [e])
      · rcases ih e with e | e
        · exact .inl e
        · exact .inr (by simp [e])

theorem Memory.wf_insert {m : Memory} {a : Nat} {v : Byte} (h : m.wf) (ha : ∀ c ∈ m, c.1 ≠ a)
    (hv : v ≠ Memory.unlisted) : (Memory.insert m a v).wf := by
  refine ⟨?_, fun c hc => ?_⟩
  · have hp := h.1
    clear h
    induction m with
    | nil => simp [Memory.insert]
    | cons d rest ih =>
      have hd : d.1 ≠ a := ha d (by simp)
      rw [List.pairwise_cons] at hp
      unfold Memory.insert
      split
      · rename_i hlt
        refine List.pairwise_cons.mpr ⟨fun e he => ?_, List.pairwise_cons.mpr hp⟩
        rcases List.mem_cons.mp he with rfl | he
        · exact hlt
        · exact lt_trans hlt (hp.1 e he)
      · refine List.pairwise_cons.mpr ⟨fun e he => ?_, ih (fun c hc => ha c (by simp [hc])) hp.2⟩
        rcases Memory.mem_insert he with rfl | he
        · show d.1 < a
          omega
        · exact hp.1 e he
  · rcases Memory.mem_insert hc with rfl | hc
    · exact hv
    · exact h.2 c hc

/-- A write keeps the canonical form. -/
theorem Memory.wf_write {m : Memory} (h : m.wf) (a : Nat) (v : Byte) : (Memory.write m a v).wf := by
  have hf : Memory.wf (m.filter fun c => decide (c.1 ≠ a)) :=
    ⟨h.1.filter _, fun c hc => h.2 c (List.mem_filter.mp hc).1⟩
  unfold Memory.write
  dsimp only
  split
  · exact hf
  · rename_i hv
    exact Memory.wf_insert hf (by simp) hv

theorem Memory.wf_nil : Memory.wf [] := ⟨List.Pairwise.nil, by simp⟩

/-- The memory after reset is in the canonical form, in every configuration. -/
theorem State.resetFor_mem_wf (c : Config) : (State.resetFor c).mem.wf := Memory.wf_nil

/-- Two memories in the canonical form that read the same are the same list. -/
theorem Memory.ext {m n : Memory} (hm : m.wf) (hn : n.wf) (h : ∀ a, Memory.read m a = Memory.read n a) : m = n := by
  have low : ∀ (l : Memory) (a : Nat), (∀ c ∈ l, a < c.1) → Memory.read l a = Memory.unlisted := by
    intro l a
    induction l with
    | nil => simp [Memory.read]
    | cons c rest ih =>
      intro hl
      have hc : c.1 ≠ a := (hl c (by simp)).ne'
      simpa [Memory.read, hc] using ih fun d hd => hl d (by simp [hd])
  induction m generalizing n with
  | nil =>
    cases n with
    | nil => rfl
    | cons d n =>
      have := h d.1
      simp only [Memory.read, if_true] at this
      exact absurd this.symm (hn.2 d (by simp))
  | cons c m ih =>
    have hc := hm.2 c (by simp)
    have hm1 := List.pairwise_cons.mp hm.1
    cases n with
    | nil =>
      have := h c.1
      simp only [Memory.read, if_true] at this
      exact absurd this hc
    | cons d n =>
      have hd := hn.2 d (by simp)
      have hn1 := List.pairwise_cons.mp hn.1
      have e : c.1 = d.1 := by
        rcases lt_trichotomy c.1 d.1 with hlt | heq | hlt
        · have h1 := h c.1
          rw [low (d :: n) c.1 (by
            intro x hx
            rcases List.mem_cons.mp hx with rfl | hx
            · exact hlt
            · exact lt_trans hlt (hn1.1 x hx))] at h1
          simp only [Memory.read, if_true] at h1
          exact absurd h1 hc
        · exact heq
        · have h1 := h d.1
          rw [low (c :: m) d.1 (by
            intro x hx
            rcases List.mem_cons.mp hx with rfl | hx
            · exact hlt
            · exact lt_trans hlt (hm1.1 x hx))] at h1
          simp only [Memory.read, if_true] at h1
          exact absurd h1.symm hd
      have e2 : c.2 = d.2 := by simpa [Memory.read, e] using h d.1
      have ec : c = d := Prod.ext e e2
      subst ec
      congr 1
      refine ih ⟨hm1.2, fun x hx => hm.2 x (by simp [hx])⟩ ⟨hn1.2, fun x hx => hn.2 x (by simp [hx])⟩ fun a => ?_
      by_cases ha : c.1 = a
      · subst ha
        rw [low m _ hm1.1, low n _ hn1.1]
      · simpa [Memory.read, ha] using h a

/-! ## A run of bytes -/

/-- Writing a run of cells, or of those among them that satisfy a condition, keeps the canonical form. -/
theorem Memory.wf_foldl_write (p : Host.Cell → Prop) [DecidablePred p] (cells : List Host.Cell) {m : Memory}
    (h : m.wf) : (cells.foldl (fun m c => if p c then Memory.write m c.1 c.2 else m) m).wf := by
  induction cells generalizing m with
  | nil => exact h
  | cons c rest ih =>
    rw [List.foldl_cons]
    apply ih
    split
    · exact Memory.wf_write h _ _
    · exact h

/-- `writeCells` keeps the canonical form. -/
theorem State.writeCells_wf (s : State) (cells : List Host.Cell) (h : s.mem.wf) : (s.writeCells cells).mem.wf :=
  Memory.wf_foldl_write (fun c => s.kindAt c.1 = .ram) cells h

/-- `writeCells` changes no byte that is not ram or not among the cells. -/
theorem State.writeCells_read_other (s : State) (cells : List Host.Cell) (a : Nat)
    (h : s.kindAt a ≠ .ram ∨ ∀ c ∈ cells, c.1 ≠ a) : (s.writeCells cells).mem.read a = s.mem.read a := by
  rw [State.writeCells_mem]
  generalize s.mem = m
  induction cells generalizing m with
  | nil => rfl
  | cons c rest ih =>
    rw [List.foldl_cons, ih (h.imp_right fun h d hd => h d (by simp [hd]))]
    split
    · rename_i hk
      rw [Memory.read_write, if_neg]
      rintro rfl
      rcases h with h | h
      · exact h hk
      · exact h c (by simp) rfl
    · rfl

/-- `writeCells` puts the value of a cell of ram at its address, if no later cell has the address. -/
theorem State.writeCells_read_range (s : State) (addr n : Nat) (f : Nat → Byte)
    (h : ∀ k < n, s.kindAt (addr + k) = .ram) (k : Nat) (hk : k < n) :
    (s.writeCells ((List.range n).map fun j => (addr + j, f j))).mem.read (addr + k) = f k := by
  induction n with
  | zero => omega
  | succ n ih =>
    rw [State.writeCells_mem, List.range_succ, List.map_append, List.foldl_append]
    simp only [List.map_cons, List.map_nil, List.foldl_cons, List.foldl_nil, h n (by omega), if_true]
    rw [Memory.read_write]
    split
    · rename_i e
      have : k = n := by omega
      rw [this]
    · have := ih (fun j hj => h j (by omega)) (by omega)
      rwa [State.writeCells_mem] at this

end Sys2Proof.Machine
end

