-- ==== Sys2Proof/Laws/Registers.lean ====
section
/-! SUPPORT. What a register reads after a write, the operands as numbers, and `WriteW`. -/

namespace Sys2Proof.Machine

/-! ## Reads -/

@[simp] theorem State.reg_zero (s : State) : s.reg 0 = 0 := by simp [State.reg]

@[simp] theorem State.regLo_zero (s : State) : s.regLo 0 = 0 := by simp [State.regLo]

/-- The number of a register from its halves. -/
theorem Reg.value_toNat (r : Reg) : r.value.toNat = r.hi.toNat * 2 ^ 32 + r.lo.toNat := by
  refine (BitVec.toNat_append r.hi r.lo).trans ?_
  rw [Nat.shiftLeft_eq, Nat.mul_comm, ← Nat.two_pow_add_eq_or_of_lt r.lo.isLt]

theorem Reg.value_setWidth (r : Reg) : r.value.setWidth 32 = r.lo := by
  apply BitVec.eq_of_toNat_eq
  have := r.lo.isLt
  rw [BitVec.toNat_setWidth, Reg.value_toNat]
  omega

/-- A value is made of its two halves. -/
theorem Reg.value_of_halves (v : Word64) : Reg.value ⟨v.extractLsb' 32 32, v.setWidth 32⟩ = v := by
  apply BitVec.eq_of_toNat_eq
  rw [Reg.value_toNat]
  have := v.isLt
  simp only [BitVec.extractLsb'_toNat, BitVec.toNat_setWidth, Nat.shiftRight_eq_div_pow]
  omega

/-- The lower half of a register is the low 32 bits of its value. -/
theorem State.regLo_eq (s : State) (r : RegNum) : s.regLo r = (s.reg r).setWidth 32 := by
  unfold State.regLo State.reg
  split
  · rfl
  · exact (Reg.value_setWidth _).symm

/-- A source operand is the low `W` bits of its register. -/
theorem State.src_eq (s : State) (r : RegNum) : s.src r = (s.reg r).setWidth s.opWidth := by
  unfold State.src
  split
  · rename_i h
    rw [State.regLo_eq]
    apply BitVec.eq_of_toNat_eq
    simp [h]
  · rfl

/-- The data of a store is the low `8n` bits of its register. -/
theorem State.storeData_eq (s : State) (r : RegNum) (n : Nat) : s.storeData r n = (s.reg r).setWidth (8 * n) := by
  unfold State.storeData
  split
  · rename_i h
    rw [State.regLo_eq]
    apply BitVec.eq_of_toNat_eq
    have : 2 ^ (8 * n) ∣ 2 ^ 32 := Nat.pow_dvd_pow 2 (by omega)
    simp only [BitVec.toNat_setWidth]
    exact Nat.mod_mod_of_dvd _ this
  · rfl

/-- Registers read the same where the register file is the same. -/
theorem State.reg_congr {s t : State} (h : t.regs = s.regs) (r : RegNum) : t.reg r = s.reg r := by
  simp [State.reg, h]

theorem State.regLo_congr {s t : State} (h : t.regs = s.regs) (r : RegNum) : t.regLo r = s.regLo r := by
  simp [State.regLo, h]

@[simp] theorem State.reg_setPc {w : Nat} (s : State) (t : BitVec w) (r : RegNum) : (s.setPc t).reg r = s.reg r := rfl

@[simp] theorem State.regLo_setPc {w : Nat} (s : State) (t : BitVec w) (r : RegNum) :
    (s.setPc t).regLo r = s.regLo r := rfl

/-- The kinds of the addresses depend on the configuration alone. -/
theorem State.kindAt_congr {s t : State} (h : t.cfg = s.cfg) (a : Nat) : t.kindAt a = s.kindAt a := by
  simp [State.kindAt, h]

/-! ## Writes -/

theorem State.reg_setHalves (s : State) (rd r : RegNum) (hi lo : BitVec 32) :
    (s.setHalves rd hi lo).reg r = if r = rd ∧ rd ≠ 0 then Reg.value ⟨hi, lo⟩ else s.reg r := by
  unfold State.setHalves State.reg
  by_cases h0 : rd = 0
  · simp only [h0, if_true, ne_eq, not_true_eq_false, and_false, if_false]
  · by_cases hr : r = rd
    · subst hr
      simp only [h0, if_false, ne_eq, not_false_eq_true, and_self, if_true, Vector.getElem_set_self]
    · have : rd.toNat ≠ r.toNat := fun e => hr (BitVec.eq_of_toNat_eq e.symm)
      simp only [h0, hr, if_false, false_and, Vector.getElem_set, this]

theorem State.regLo_setHalves (s : State) (rd r : RegNum) (hi lo : BitVec 32) :
    (s.setHalves rd hi lo).regLo r = if r = rd ∧ rd ≠ 0 then lo else s.regLo r := by
  simp only [State.regLo_eq, State.reg_setHalves]
  split
  · exact Reg.value_setWidth ⟨hi, lo⟩
  · rfl

theorem Config.fit_toNat (c : Config) (v : Word64) : (c.fit v).toNat = v.toNat % 2 ^ c.xlen.bits := by
  unfold Config.fit Xlen.bits
  cases c.xlen
  · simp only [BitVec.toNat_setWidth]; omega
  · simp [Nat.mod_eq_of_lt v.isLt]

/-- What every register reads after `x[rd] <- v`. -/
theorem State.reg_setReg (s : State) (rd r : RegNum) (v : Word64) :
    (s.setReg rd v).reg r = if r = rd ∧ rd ≠ 0 then s.cfg.fit v else s.reg r := by
  unfold State.setReg Config.fit
  cases h : s.cfg.xlen <;> dsimp only <;> rw [State.reg_setHalves]
  · congr 1
    apply BitVec.eq_of_toNat_eq
    have : (0 : BitVec 32).toNat = 0 := rfl
    rw [Reg.value_toNat, this]
    simp only [BitVec.toNat_setWidth]
    omega
  · rw [Reg.value_of_halves]

/-- What every register reads after `WriteW(rd, v)`. -/
theorem State.reg_writeW (s : State) (i : Instr) (rd r : RegNum) (v : BitVec s.opWidth) :
    (s.writeW i rd v).reg r =
      if r = rd ∧ rd ≠ 0 then
        if s.narrow then Reg.value ⟨s.upperHalf i (s.reg rd) (v.setWidth 32), v.setWidth 32⟩ else v.setWidth 64
      else s.reg r := by
  unfold State.writeW
  split
  · rename_i h
    exact State.reg_setHalves s rd r _ _
  · rename_i h
    have h : s.narrow = false := by simpa using h
    rw [State.reg_setReg]
    congr 1
    apply BitVec.eq_of_toNat_eq
    have := v.isLt
    have hw := State.opWidth_of_wide h
    have hle : s.cfg.xlen.bits ≤ 64 := by cases s.cfg.xlen <;> simp [Xlen.bits]
    rw [Config.fit_toNat, BitVec.toNat_setWidth, ← hw]
    have h64 : v.toNat % 2 ^ 64 = v.toNat :=
      Nat.mod_eq_of_lt (lt_of_lt_of_le this (Nat.pow_le_pow_right (by omega) (hw ▸ hle)))
    rw [h64, Nat.mod_eq_of_lt this]

/-- A value of the operating width keeps its number when it is zero-extended. -/
theorem State.toNat_setWidth64 (s : State) (v : BitVec s.opWidth) : (v.setWidth 64).toNat = v.toNat := by
  have hle : 2 ^ s.opWidth ≤ 2 ^ 64 := by
    rcases s.opWidth_eq with e | e
    all_goals simp [e]
  rw [BitVec.toNat_setWidth, Nat.mod_eq_of_lt (lt_of_lt_of_le v.isLt hle)]

/-- `WriteW` does what the statements call `RegWritten`. -/
theorem State.writeW_regWritten (s : State) (i : Instr) (rd : RegNum) (v : BitVec s.opWidth) :
    RegWritten s (s.writeW i rd v) rd v.toNat := by
  refine ⟨fun r h => ?_, State.reg_zero _, fun h => ?_⟩
  · rw [State.reg_writeW, if_neg (fun e => h e.1)]
  · rw [State.reg_writeW, if_pos ⟨rfl, h⟩]
    have := v.isLt
    constructor
    · split
      · rename_i hn
        have hw := State.opWidth_of_narrow hn
        have hlt : v.toNat < 2 ^ 32 := by rw [← hw]; exact this
        have hp : 2 ^ s.opWidth = 2 ^ 32 := by rw [hw]
        rw [Reg.value_toNat, BitVec.toNat_setWidth, hp]
        omega
      · rw [State.toNat_setWidth64, Nat.mod_eq_of_lt this]
    · intro hn
      rw [hn]
      exact State.toNat_setWidth64 s v

/-! ## Operands as numbers -/

@[simp] theorem State.src_toNat (s : State) (r : RegNum) : (s.src r).toNat = s.u r := by
  simp [State.src_eq, State.u]

theorem State.src_toInt (s : State) (r : RegNum) : (s.src r).toInt = s.sgn r := by
  simp only [State.src_eq, State.sgn, BitVec.toInt_eq_toNat_bmod, BitVec.toNat_setWidth, Int.natCast_mod]
  exact Int.emod_bmod _ _

@[simp] theorem State.immW_toNat {n : Nat} (s : State) (imm : BitVec n) : (s.immW imm).toNat = s.immU imm := by
  unfold State.immW State.immU
  rw [BitVec.signExtend, BitVec.toNat_ofInt]

theorem State.u_lt (s : State) (r : RegNum) : s.u r < 2 ^ s.opWidth := Nat.mod_lt _ (Nat.two_pow_pos _)

theorem State.immU_lt {n : Nat} (s : State) (imm : BitVec n) : s.immU imm < 2 ^ s.opWidth := by
  rw [← State.immW_toNat]; exact BitVec.isLt _

@[simp] theorem State.pcW_toNat (s : State) : s.pcW.toNat = s.pc.toNat % 2 ^ s.opWidth := by simp [State.pcW]

@[simp] theorem State.seqPc_toNat (s : State) : s.seqPc.toNat = s.seqNat := by
  unfold State.seqPc State.seqNat
  have : (4 : BitVec s.opWidth).toNat = 4 := by
    rcases s.opWidth_eq with e | e <;> rw [e] <;> rfl
  rw [BitVec.toNat_add, State.pcW_toNat, this, Nat.mod_add_mod]

theorem State.relTarget_toNat {n : Nat} (s : State) (imm : BitVec n) :
    (s.relTarget imm).toNat = (s.pc.toNat + s.immU imm) % 2 ^ s.opWidth := by
  simp [State.relTarget, BitVec.toNat_add]

theorem State.ea_toNat (s : State) (rs1 : RegNum) (imm : Imm12) :
    (s.ea rs1 imm).toNat = (s.u rs1 + s.immU imm) % 2 ^ s.opWidth := by
  simp [State.ea, BitVec.toNat_add]

/-- A value brought to the operating width and zero-extended. -/
theorem State.toNat_narrowed (s : State) (v : Word64) :
    ((v.setWidth s.opWidth).setWidth 64).toNat = v.toNat % 2 ^ s.opWidth := by
  rw [State.toNat_setWidth64, BitVec.toNat_setWidth]

@[simp] theorem State.ip_toNat (s : State) : s.ip.toNat = s.pc.toNat % 2 ^ s.opWidth := by
  unfold State.ip
  rw [State.toNat_setWidth64, State.pcW_toNat]

end Sys2Proof.Machine
end

