-- ==== Sys2Proof/Laws/Operations.lean ====
section
/-! SUPPORT. For each shared operation, once, everything it can do; and what one instruction can do to the state. -/

namespace Sys2Proof.Machine

/-! ## Sameness -/

theorem SameCsrs.refl (s : State) : SameCsrs s s := by simp [SameCsrs]

theorem SameCsrs.trans {s t u : State} (h : SameCsrs s t) (k : SameCsrs t u) : SameCsrs s u := by
  obtain ⟨h1, h2, h3, h4, h5, h6, h7, h8, h9, h10, h11⟩ := h
  obtain ⟨k1, k2, k3, k4, k5, k6, k7, k8, k9, k10, k11⟩ := k
  exact ⟨k1.trans h1, k2.trans h2, k3.trans h3, k4.trans h4, k5.trans h5, k6.trans h6, k7.trans h7, k8.trans h8,
    k9.trans h9, k10.trans h10, k11.trans h11⟩

/-- Every CSR number reads the same where the CSRs are the same. -/
theorem SameCsrs.csr {s t : State} (h : SameCsrs s t) (n : Nat) : t.csr n = s.csr n := by
  obtain ⟨h1, h2, h3, h4, h5, h6, h7, h8, h9, h10, h11⟩ := h
  unfold State.csr
  rw [h1, h2, h3, h4, h5, h6, h7, h8, h9, h10, h11]

/-! ## How an instruction ends -/

/-- Everything `retire` does. -/
theorem State.retire_spec (s : State) (i : Instr) (rd : RegNum) (v : BitVec s.opWidth) :
    ∃ t, s.retire i rd v = .next t ∧ RegWritten s t rd v.toNat ∧ t.pc.toNat = s.seqNat ∧
      SameCsrs s t ∧ SamePlatform s t ∧ SameMemory s t ∧ t.events = s.events := by
  refine ⟨_, rfl, ?_, ?_, ?_, ?_, ?_, ?_⟩
  · exact State.writeW_regWritten s i rd v
  · rw [State.setPc_pc, State.toNat_setWidth64, State.seqPc_toNat]
  · simp [SameCsrs]
  · simp [SamePlatform]
  · intro a; simp
  · simp

/-- An instruction whose meaning is `retire i rd v` computes the number of `v`. -/
theorem Computes.of_retire {i : Instr} {s : State} {rd : RegNum} {v : BitVec s.opWidth} {n : Nat}
    (h : exec i s = s.retire i rd v) (hv : v.toNat = n) : Computes i s rd n := by
  subst hv
  obtain ⟨t, ht, rest⟩ := s.retire_spec i rd v
  exact ⟨t, h.trans ht, rest⟩

/-- Everything `jumpLink` does. -/
theorem State.jumpLink_spec (s : State) (i : Instr) (rd : RegNum) (target : BitVec s.opWidth) :
    ∃ t, s.jumpLink i rd target = .next t ∧ RegWritten s t rd s.seqNat ∧ t.pc.toNat = target.toNat ∧
      SameCsrs s t ∧ SamePlatform s t ∧ SameMemory s t ∧ t.events = s.events := by
  refine ⟨_, rfl, ?_, ?_, ?_, ?_, ?_, ?_⟩
  · rw [← State.seqPc_toNat]
    exact State.writeW_regWritten s i rd s.seqPc
  · rw [State.setPc_pc, State.toNat_setWidth64]
  · simp [SameCsrs]
  · simp [SamePlatform]
  · intro a; simp
  · simp

/-- Everything a change of `pc` alone does. -/
theorem State.setPc_spec (s : State) (t : BitVec s.opWidth) :
    (s.setPc t).pc.toNat = t.toNat ∧ SameRegs s (s.setPc t) ∧ SameCsrs s (s.setPc t) ∧ SamePlatform s (s.setPc t) ∧
      SameMemory s (s.setPc t) ∧ (s.setPc t).events = s.events := by
  refine ⟨?_, fun r => State.reg_congr rfl r, ?_, ?_, fun a => rfl, rfl⟩
  · rw [State.setPc_pc, State.toNat_setWidth64]
  · simp [SameCsrs]
  · simp [SamePlatform]

/-! ## Loads -/

/-- The address an access uses, as the statements write it. -/
theorem State.accessAddr_eq (s : State) (rs1 : RegNum) (imm : Imm12) (n : Nat) :
    s.accessAddr rs1 imm n = s.eaNat rs1 imm n := by
  unfold State.accessAddr State.eaNat
  rw [State.ea_toNat]
  exact Nat.eq_sub_of_add_eq (Nat.div_add_mod' _ _)

theorem State.readable_iff (s : State) (addr n : Nat) :
    s.readable addr n = true ↔ ∀ k < n, s.kindAt (addr + k) ≠ .absent := by
  simp [State.readable]

theorem State.writable_iff (s : State) (addr n : Nat) :
    s.writable addr n = true ↔ ∀ k < n, s.kindAt (addr + k) ≠ .absent ∧ s.kindAt (addr + k) ≠ .rom := by
  simp [State.writable]

theorem State.memNat_congr {s t : State} (addr n : Nat)
    (h : ∀ k < n, t.mem.read (addr + k) = s.mem.read (addr + k)) : t.memNat addr n = s.memNat addr n := by
  induction n with
  | zero => rfl
  | succ n ih => simp only [State.memNat, ih fun k hk => h k (by omega), h n (by omega)]

theorem State.memNat_lt (s : State) (addr n : Nat) : s.memNat addr n < 2 ^ (8 * n) := by
  induction n with
  | zero => simp [State.memNat]
  | succ n ih =>
    have := (s.mem.read (addr + n)).isLt
    rw [State.memNat, show 8 * (n + 1) = 8 * n + 8 by ring, pow_add]
    omega

/-- The bytes of ram or rom, big-endian. -/
theorem State.beVal_bytesAt (s : State) (addr n : Nat) (h : s.plainMemory addr n) :
    beVal (s.bytesAt addr n) = s.memNat addr n := by
  induction n with
  | zero => rfl
  | succ n ih =>
    have ih := ih fun k hk => h k (by omega)
    unfold State.bytesAt beVal at ih ⊢
    rw [List.range_succ, List.map_append, List.foldl_append, ih]
    have hb : s.byteAt (addr + n) = s.mem.read (addr + n) := by
      unfold State.byteAt
      rcases h n (by omega) with e | e <;> rw [e]
    simp only [List.map_cons, List.map_nil, List.foldl_cons, List.foldl_nil, hb, State.memNat]

theorem State.deviceBytes_eq_nil (s : State) (cells : List Host.Cell)
    (h : ∀ c ∈ cells, ∀ d, s.kindAt c.1 ≠ .device d) : s.deviceBytes cells = [] := by
  unfold State.deviceBytes
  rw [List.filterMap_eq_nil_iff]
  intro c hc
  have := h c hc
  cases hk : s.kindAt c.1 <;> simp_all

theorem State.noteAccess_plain (s : State) (b : Bool) (addr n : Nat) (cells : List Host.Cell)
    (h : ∀ c ∈ cells, ∀ d, s.kindAt c.1 ≠ .device d) : s.noteAccess b addr n cells = s := by
  unfold State.noteAccess
  rw [State.deviceBytes_eq_nil s cells h]

theorem State.isDevice_iff (s : State) (a : Nat) : s.isDevice a = true ↔ ∃ d, s.kindAt a = .device d := by
  unfold State.isDevice
  cases s.kindAt a <;> simp

/-- The device bytes of an access stand in the order of its cells. -/
theorem State.deviceBytes_addrs (s : State) (cells : List Host.Cell) :
    (s.deviceBytes cells).map (·.addr) = (cells.map (·.1)).filter s.isDevice := by
  induction cells with
  | nil => rfl
  | cons c rest ih =>
    unfold State.deviceBytes at *
    rw [List.filterMap_cons, List.map_cons, List.filter_cons]
    cases h : s.kindAt c.1 <;> simp [State.isDevice, h, ih]

/-- Each device byte of an access names its device and holds the value of one of the cells. -/
theorem State.mem_deviceBytes {s : State} {cells : List Host.Cell} {b : DeviceByte} (h : b ∈ s.deviceBytes cells) :
    s.kindAt b.addr = .device b.device ∧ (b.addr, b.value) ∈ cells := by
  unfold State.deviceBytes at h
  obtain ⟨c, hc, h⟩ := List.mem_filterMap.mp h
  split at h
  · rename_i hk
    cases h
    exact ⟨hk, hc⟩
  all_goals cases h

/-- An access that touches a device byte appends its event and changes nothing else but the count of free values. -/
theorem State.noteAccess_device (s : State) (b : Bool) (addr n : Nat) (cells : List Host.Cell)
    (h : s.deviceBytes cells ≠ []) :
    s.noteAccess b addr n cells =
      { s with events := s.events ++ [⟨b, addr, n, s.deviceBytes cells⟩], draws := s.draws + 1 } := by
  unfold State.noteAccess
  cases e : s.deviceBytes cells with
  | nil => exact absurd e h
  | cons d ds => rfl

/-- A load from ram or rom: the bytes big-endian, and the state is as it was. -/
theorem State.load_plain (s : State) (addr n : Nat) (h : s.plainMemory addr n) :
    s.load addr n = .ok (BitVec.ofNat (8 * n) (s.memNat addr n), s) := by
  have hr : s.readable addr n = true := by
    rw [State.readable_iff]
    intro k hk
    rcases h k hk with e | e <;> rw [e] <;> simp
  unfold State.load
  dsimp only
  rw [if_pos hr, State.beVal_bytesAt s addr n h, State.noteAccess_plain]
  intro c hc d
  obtain ⟨k, hk, rfl⟩ := List.mem_map.mp hc
  rcases h k (List.mem_range.mp hk) with e | e <;> rw [e] <;> simp

/-- A load that touches an absent byte faults. -/
theorem State.load_absent (s : State) (addr n k : Nat) (hk : k < n) (h : s.kindAt (addr + k) = .absent) :
    s.load addr n = .error .unmappedAccess := by
  unfold State.load
  rw [if_neg]
  rw [State.readable_iff]
  exact fun hr => hr k hk h

/-- Everything `load` can do. -/
theorem State.load_cases (s : State) (addr n : Nat) :
    (∃ v cells, s.load addr n = .ok (v, s.noteAccess false addr n cells) ∧ s.readable addr n = true) ∨
      (s.load addr n = .error .unmappedAccess ∧ s.readable addr n = false) := by
  unfold State.load
  split
  · rename_i h
    exact .inl ⟨_, _, rfl, h⟩
  · rename_i h
    exact .inr ⟨rfl, by simpa using h⟩

/-! ## Stores -/

theorem beByte_toNat (n : Nat) (v : BitVec (8 * n)) (k : Nat) :
    (beByte n v k).toNat = v.toNat / 256 ^ (n - k - 1) % 256 := by
  unfold beByte
  rw [BitVec.extractLsb'_toNat, Nat.shiftRight_eq_div_pow, Nat.pow_mul]

/-- Bytes that are those of a number, big-endian, read as the number. -/
theorem State.memNat_of_bytes (s : State) (addr n x : Nat) (hx : x < 256 ^ n)
    (h : ∀ k < n, (s.mem.read (addr + k)).toNat = x / 256 ^ (n - k - 1) % 256) : s.memNat addr n = x := by
  have key : ∀ m, m ≤ n → s.memNat addr m = x / 256 ^ (n - m) := by
    intro m
    induction m with
    | zero =>
      intro _
      simp [State.memNat, Nat.div_eq_of_lt hx]
    | succ m ih =>
      intro hm
      rw [State.memNat, ih (by omega), h m (by omega)]
      have e : 256 ^ (n - m) = 256 ^ (n - (m + 1)) * 256 := by
        rw [← pow_succ]; congr 1; omega
      have e2 : n - m - 1 = n - (m + 1) := by omega
      rw [e, e2, ← Nat.div_div_eq_div_mul]
      omega
  simpa using key n le_rfl

/-- A store that touches an absent or a rom byte faults. -/
theorem State.store_error (s : State) (addr n : Nat) (v : BitVec (8 * n)) (k : Nat) (hk : k < n)
    (h : s.kindAt (addr + k) = .absent ∨ s.kindAt (addr + k) = .rom) :
    s.store addr n v = .error .unmappedAccess := by
  unfold State.store
  rw [if_neg]
  rw [State.writable_iff]
  intro hw
  rcases h with h | h
  · exact (hw k hk).1 h
  · exact (hw k hk).2 h

theorem State.storeCells_mem {addr n : Nat} {v : BitVec (8 * n)} {c : Host.Cell} (h : c ∈ storeCells addr n v) :
    addr ≤ c.1 ∧ c.1 < addr + n := by
  obtain ⟨k, hk, rfl⟩ := List.mem_map.mp h
  have := List.mem_range.mp hk
  exact ⟨by dsimp only; omega, by dsimp only; omega⟩

/-- A store to ram: the bytes big-endian, every other byte as it was, and nothing else changes. -/
theorem State.store_ram (s : State) (addr n : Nat) (v : BitVec (8 * n)) (h : s.ramOnly addr n) :
    ∃ t, s.store addr n v = .ok t ∧ t = s.writeCells (storeCells addr n v) ∧ t.memNat addr n = v.toNat ∧
      SameMemoryOutside s t addr n := by
  have hw : s.writable addr n = true := by
    rw [State.writable_iff]
    intro k hk
    rw [h k hk]
    simp
  refine ⟨_, ?_, rfl, ?_, ?_⟩
  · unfold State.store
    rw [if_pos hw, State.noteAccess_plain]
    intro c hc d
    obtain ⟨k, hk, rfl⟩ := List.mem_map.mp hc
    have : (s.writeCells (storeCells addr n v)).kindAt (addr + k) = .ram := h k (List.mem_range.mp hk)
    rw [this]
    simp
  · apply State.memNat_of_bytes
    · have := v.isLt
      rwa [Nat.pow_mul] at this
    · intro k hk
      have : (s.writeCells (storeCells addr n v)).mem.read (addr + k) = beByte n v k :=
        State.writeCells_read_range s addr n (beByte n v) h k hk
      rw [this, beByte_toNat]
  · intro a ha
    apply State.writeCells_read_other
    refine .inr fun c hc e => ?_
    have := State.storeCells_mem hc
    omega

/-- Everything `store` can do. -/
theorem State.store_cases (s : State) (addr n : Nat) (v : BitVec (8 * n)) :
    (s.store addr n v =
        .ok ((s.writeCells (storeCells addr n v)).noteAccess true addr n (storeCells addr n v)) ∧
      s.writable addr n = true) ∨
      (s.store addr n v = .error .unmappedAccess ∧ s.writable addr n = false) := by
  unfold State.store
  split
  · rename_i h
    exact .inl ⟨rfl, h⟩
  · rename_i h
    exact .inr ⟨rfl, by simpa using h⟩

/-! ## What one instruction can do -/

/-- The effect of an instruction that completes. -/
inductive ExecEffect (i : Instr) (s : State) : State → Prop where
  /-- A register is written at the operating width, and `pc` is set. -/
  | writes (rd : RegNum) (v pc : BitVec s.opWidth) (hr : rd ∈ i.regs) : ExecEffect i s ((s.writeW i rd v).setPc pc)
  /-- Only `pc` is set. -/
  | jumps (pc : BitVec s.opWidth) : ExecEffect i s (s.setPc pc)
  /-- A load. -/
  | loads (rd rs1 : RegNum) (imm : Imm12) (n : Nat) (v : Word64) (cells : List Host.Cell) (hd : i.loadDest = some rd)
      (ha : i.access = some (rs1, imm, n)) :
      ExecEffect i s (((s.noteAccess false (s.accessAddr rs1 imm n) n cells).setReg rd v).setPc s.seqPc)
  /-- A store. -/
  | stores (rs1 rs2 : RegNum) (imm : Imm12) (n : Nat) (hs : i.storeSource = some rs2)
      (ha : i.access = some (rs1, imm, n)) :
      ExecEffect i s (((s.writeCells (storeCells (s.accessAddr rs1 imm n) n (s.storeData rs2 n))).noteAccess true
        (s.accessAddr rs1 imm n) n (storeCells (s.accessAddr rs1 imm n) n (s.storeData rs2 n))).setPc s.seqPc)
  /-- SYSCALL. -/
  | systemCall (h : i = .syscall) : ExecEffect i s (s.takeTrap .systemCall s.seqPc)
  /-- SYSRET. -/
  | systemReturn (h : i = .sysret) (hk : s.kernel = true) (hm : s.spvg = 0 ∨ s.spvg = 2) : ExecEffect i s s.trapReturn
  /-- CSRW in Kernel mode. -/
  | csrWrite (rs1 : RegNum) (n : CsrNum) (h : i = .csrw rs1 n) (hk : s.kernel = true)
      (hf : s.csrwFault n.toNat ((s.src rs1).setWidth 64) = none) :
      ExecEffect i s ((s.setCsr n.toNat ((s.src rs1).setWidth 64)).setPc s.seqPc)

theorem ExecEffect.of_retire {i : Instr} {s t : State} {rd : RegNum} {v : BitVec s.opWidth}
    (h : s.retire i rd v = .next t) (hr : rd ∈ i.regs) : ExecEffect i s t := by
  cases h
  exact .writes rd v _ hr

theorem ExecEffect.of_jumpLink {i : Instr} {s t : State} {rd : RegNum} {v : BitVec s.opWidth}
    (h : s.jumpLink i rd v = .next t) (hr : rd ∈ i.regs) : ExecEffect i s t := by
  cases h
  exact .writes rd _ _ hr

theorem ExecEffect.of_condJump {i : Instr} {s t : State} {b : Bool} {imm : Imm12}
    (h : s.condJump b imm = .next t) : ExecEffect i s t := by
  cases h
  exact .jumps _

theorem ExecEffect.of_loadTo {i : Instr} {s t : State} {rd rs1 : RegNum} {imm : Imm12} {n : Nat}
    {ext : BitVec (8 * n) → Word64} (h : s.loadTo rd rs1 imm n ext = .next t) (hd : i.loadDest = some rd)
    (ha : i.access = some (rs1, imm, n)) : ExecEffect i s t := by
  unfold State.loadTo at h
  rcases s.load_cases (s.accessAddr rs1 imm n) n with ⟨v, cells, e, -⟩ | ⟨e, -⟩
  · rw [e] at h
    cases h
    exact .loads rd rs1 imm n _ cells hd ha
  · rw [e] at h
    cases h

theorem ExecEffect.of_storeFrom {i : Instr} {s t : State} {rs1 rs2 : RegNum} {imm : Imm12} {n : Nat}
    (h : s.storeFrom rs1 rs2 imm n = .next t) (hs : i.storeSource = some rs2)
    (ha : i.access = some (rs1, imm, n)) : ExecEffect i s t := by
  unfold State.storeFrom at h
  rcases s.store_cases (s.accessAddr rs1 imm n) n (s.storeData rs2 n) with ⟨e, -⟩ | ⟨e, -⟩
  · rw [e] at h
    cases h
    exact .stores rs1 rs2 imm n hs ha
  · rw [e] at h
    cases h

/-- Everything an instruction that completes can do. -/
theorem exec_effect {i : Instr} {s t : State} (h : exec i s = .next t) : ExecEffect i s t := by
  cases i
  case syscall => cases h; exact .systemCall rfl
  case sysret =>
    simp only [exec, execSysret] at h
    split at h
    · split at h
      · cases h
      · rename_i hk hm
        cases h
        refine .systemReturn rfl hk ?_
        by_contra hc
        exact hm (not_or.mp hc)
    · cases h
  case csrw rs1 n =>
    simp only [exec, execCsrw] at h
    split at h
    · split at h
      · cases h
      · rename_i hk _ hf
        cases h
        exact .csrWrite rs1 n rfl hk hf
    · cases h
      exact .jumps _
  case csrr rd n =>
    simp only [exec, execCsrr] at h
    split at h
    · split at h
      · cases h
      · exact .of_retire h (by simp [Instr.regs])
    · exact .of_retire h (by simp [Instr.regs])
  all_goals first
    | exact .of_retire h (by simp [Instr.regs])
    | exact .of_jumpLink h (by simp [Instr.regs])
    | exact .of_condJump h
    | exact .of_loadTo h rfl rfl
    | exact .of_storeFrom h rfl rfl

/-! ## What a boundary can do -/

theorem word64_eq_zero_iff (v : Word64) : v = 0 ↔ v.toNat = 0 :=
  ⟨fun h => by rw [h]; rfl, fun h => BitVec.eq_of_toNat_eq h⟩

theorem word64_sub_one_toNat {v : Word64} (h : v.toNat ≠ 0) : (v - 1).toNat = v.toNat - 1 := by
  have hl := v.isLt
  have h1 : (1 : Word64).toNat = 1 := rfl
  rw [BitVec.toNat_sub, h1]
  omega

/-- `pcst` after the timer's part of a boundary, as the statements write it. -/
theorem State.timerTick_pcst_toNat (s : State) (i : EnvInput) : (s.timerTick i).pcst.toNat = s.timerValue i := by
  unfold State.timerTick State.timerValue
  cases s.cfg.pcsTimer with
  | absent => rfl
  | countdown =>
    dsimp only
    by_cases h : s.pcst = 0
    · rw [if_pos h, if_pos ((word64_eq_zero_iff _).mp h)]
    · have hn : s.pcst.toNat ≠ 0 := mt (word64_eq_zero_iff _).mpr h
      rw [if_neg h, if_neg hn]
      exact word64_sub_one_toNat hn
  | platform =>
    cases i.timer with
    | none => rfl
    | some v => exact Config.fit_toNat s.cfg v

/-- Whether a request is due after the timer's part of a boundary, as the statements write it. -/
theorem State.timerTick_timerDue (s : State) (i : EnvInput) : (s.timerTick i).timerDue = s.timerDueNow i := by
  unfold State.timerTick State.timerDueNow
  cases s.cfg.pcsTimer with
  | absent => exact (Bool.or_false _).symm
  | countdown =>
    dsimp only
    by_cases h : s.pcst = 0
    · rw [if_pos h, decide_eq_true ((word64_eq_zero_iff _).mp h), Bool.or_true]
    · rw [if_neg h, decide_eq_false (mt (word64_eq_zero_iff _).mpr h), Bool.or_false]
  | platform => rfl

/-- The return address of an asynchronous trap, as the statements write it. -/
theorem State.asyncRet_toNat (s : State) (a : Word64) : (s.asyncRet a s.pc).toNat = s.asyncRetNat a := by
  unfold State.asyncRet State.asyncRetNat
  cases s.cfg.iraddrExt <;> simp [BitVec.toNat_add]

/-- Everything `takeAsync` can do. -/
theorem State.takeAsync_cases (s : State) (a : Word64) :
    (∃ cause, s.ei = true ∧ s.irq = some cause ∧ s.takeAsync a = s.takeExternal a cause) ∨
      ((s.ei = false ∨ s.irq = none) ∧ s.timerWants = true ∧ s.takeAsync a = s.takeContextSwitch a) ∨
      ((s.ei = false ∨ s.irq = none) ∧ s.timerWants = false ∧ s.takeAsync a = s) := by
  unfold State.takeAsync
  cases he : s.ei <;> cases hi : s.irq <;> cases hw : s.timerWants <;> simp

/-- The trap entry of the external interrupt. -/
theorem State.takeExternal_entered (s : State) (a cause : Word64) :
    TrapEntered s (s.takeExternal a cause) a s.eivba := by
  refine ⟨?_, rfl, rfl, ?_⟩
  · rw [State.takeExternal_iraddr, State.toNat_setWidth64, State.asyncRet_toNat]
  · exact State.toNat_narrowed s s.eivba

/-- The trap entry of the process context switch interrupt. -/
theorem State.takeContextSwitch_entered (s : State) (a : Word64) :
    TrapEntered s (s.takeContextSwitch a) a s.pcsaddr := by
  refine ⟨?_, rfl, rfl, ?_⟩
  · rw [State.takeContextSwitch_iraddr, State.toNat_setWidth64, State.asyncRet_toNat]
  · exact State.toNat_narrowed s s.pcsaddr

/-- The timer's part of a boundary leaves alone what a trap entry reads. -/
theorem TrapEntered.of_timerTick {s t : State} {i : EnvInput} {a vec : Word64}
    (h : TrapEntered (s.timerTick i) t a vec) : TrapEntered s t a vec := by
  unfold TrapEntered State.asyncRetNat at *
  simpa using h

/-- What no boundary changes. -/
theorem State.boundary_frame (s : State) (a : Word64) (i : EnvInput) : BoundaryFrame s (s.boundary a i) := by
  refine ⟨by simp, by simp, by simp, by simp, by simp, by simp, fun r => State.reg_congr (by simp) r, by simp, by simp,
    by simp, by simp⟩

/-! ## What one step can do -/

/-- A step that has a successor: the fetch and the decoding succeeded, the instruction completed, and the boundary and
the environment followed. -/
theorem step_next {s t : State} (h : step s = .next t) :
    ∃ (bytes : List Byte) (i : Instr) (rest : List Byte) (u : State), s.cfg.valid = true ∧
      s.ip.extractLsb' 0 2 = 0 ∧ s.fetchBytes = .ok bytes ∧ decodeBytes s.cfg bytes = .ok (i, rest) ∧
      exec i s = .next u ∧ t = u.finishStep s.ip := by
  unfold step at h
  split at h
  · cases h
  · rename_i hv
    split at h
    · cases h
    · rename_i ha
      split at h
      · cases h
      · rename_i bytes hb
        split at h
        · cases h
        · rename_i i rest hd
          split at h
          · rename_i u hu
            cases h
            exact ⟨bytes, i, rest, u, by simpa using hv, by simpa using ha, hb, hd, hu, rfl⟩
          · cases h
          · cases h

/-- What the decoder answers, its tests made. -/
theorem decode_ok {c : Config} {w : InstrWord} {i : Instr} (h : decode c w = .ok i) :
    rawDecode c.csrField w = .ok i ∧ i.needs.met c = true ∧ i.regsExist c = true := by
  unfold decode at h
  split at h
  · cases h
  · rename_i j hj
    split at h
    · cases h
    · split at h
      · cases h
      · rename_i h1 h2
        cases h
        exact ⟨hj, by simpa using h1, by simpa using h2⟩

theorem decodeBytes_ok {c : Config} {bytes : List Byte} {i : Instr} {rest : List Byte}
    (h : decodeBytes c bytes = .ok (i, rest)) :
    ∃ b0 b1 b2 b3, bytes = b0 :: b1 :: b2 :: b3 :: rest ∧ decode c (b0 ++ b1 ++ b2 ++ b3) = .ok i := by
  unfold decodeBytes at h
  split at h
  · split at h
    · rename_i hj
      cases h
      exact ⟨_, _, _, _, rfl, hj⟩
    · cases h
  · cases h

end Sys2Proof.Machine
end

