-- ==== Sys2Proof/Laws/PerInstr.lean ====
section
/-! SUPPORT. One lemma per instruction: its words match its own row of the opcode table (30_encoding.md R99, R100). -/

namespace Sys2Proof

/-- The row of the opcode table with the instruction's mnemonic needs what the instruction needs, says which register
fields it uses, and matches every word of it, under either `CSR_FIELD`. -/
def Laws.Fields.Statement (i : Instr) : Prop :=
  ∃ r ∈ opcodeTable, r.mnemonic = i.mnemonic ∧ r.needs = i.needs ∧ ∀ f, encode f i &&& r.mask = r.value

theorem Laws.Fields.add (rd : RegNum) (rs1 : RegNum) (rs2 : RegNum) : Laws.Fields.Statement (.add rd rs1 rs2) :=
  ⟨⟨"ADD", 0xFC00F07F, 0x00000000, .base, true, true, true⟩, by decide, rfl, rfl,
    fun _ => encDss_masked _ _ _ _ _ _⟩

theorem Laws.Fields.sub (rd : RegNum) (rs1 : RegNum) (rs2 : RegNum) : Laws.Fields.Statement (.sub rd rs1 rs2) :=
  ⟨⟨"SUB", 0xFC00F07F, 0x00001000, .base, true, true, true⟩, by decide, rfl, rfl,
    fun _ => encDss_masked _ _ _ _ _ _⟩

theorem Laws.Fields.and (rd : RegNum) (rs1 : RegNum) (rs2 : RegNum) : Laws.Fields.Statement (.and rd rs1 rs2) :=
  ⟨⟨"AND", 0xFC00F07F, 0x00002000, .base, true, true, true⟩, by decide, rfl, rfl,
    fun _ => encDss_masked _ _ _ _ _ _⟩

theorem Laws.Fields.or (rd : RegNum) (rs1 : RegNum) (rs2 : RegNum) : Laws.Fields.Statement (.or rd rs1 rs2) :=
  ⟨⟨"OR", 0xFC00F07F, 0x00003000, .base, true, true, true⟩, by decide, rfl, rfl,
    fun _ => encDss_masked _ _ _ _ _ _⟩

theorem Laws.Fields.xor (rd : RegNum) (rs1 : RegNum) (rs2 : RegNum) : Laws.Fields.Statement (.xor rd rs1 rs2) :=
  ⟨⟨"XOR", 0xFC00F07F, 0x00004000, .base, true, true, true⟩, by decide, rfl, rfl,
    fun _ => encDss_masked _ _ _ _ _ _⟩

theorem Laws.Fields.shr (rd : RegNum) (rs1 : RegNum) (rs2 : RegNum) : Laws.Fields.Statement (.shr rd rs1 rs2) :=
  ⟨⟨"SHR", 0xFC00F07F, 0x00005000, .base, true, true, true⟩, by decide, rfl, rfl,
    fun _ => encDss_masked _ _ _ _ _ _⟩

theorem Laws.Fields.asr (rd : RegNum) (rs1 : RegNum) (rs2 : RegNum) : Laws.Fields.Statement (.asr rd rs1 rs2) :=
  ⟨⟨"ASR", 0xFC00F07F, 0x00006000, .base, true, true, true⟩, by decide, rfl, rfl,
    fun _ => encDss_masked _ _ _ _ _ _⟩

theorem Laws.Fields.shl (rd : RegNum) (rs1 : RegNum) (rs2 : RegNum) : Laws.Fields.Statement (.shl rd rs1 rs2) :=
  ⟨⟨"SHL", 0xFC00F07F, 0x00007000, .base, true, true, true⟩, by decide, rfl, rfl,
    fun _ => encDss_masked _ _ _ _ _ _⟩

theorem Laws.Fields.cch (rd : RegNum) (rs1 : RegNum) (rs2 : RegNum) : Laws.Fields.Statement (.cch rd rs1 rs2) :=
  ⟨⟨"CCH", 0xFC00F07F, 0x00008000, .base, true, true, true⟩, by decide, rfl, rfl,
    fun _ => encDss_masked _ _ _ _ _ _⟩

theorem Laws.Fields.bch (rd : RegNum) (rs1 : RegNum) (rs2 : RegNum) : Laws.Fields.Statement (.bch rd rs1 rs2) :=
  ⟨⟨"BCH", 0xFC00F07F, 0x00009000, .base, true, true, true⟩, by decide, rfl, rfl,
    fun _ => encDss_masked _ _ _ _ _ _⟩

theorem Laws.Fields.addi (rd : RegNum) (rs1 : RegNum) (imm : Imm12) : Laws.Fields.Statement (.addi rd rs1 imm) :=
  ⟨⟨"ADDI", 0xFC00F000, 0x04000000, .base, true, true, false⟩, by decide, rfl, rfl,
    fun _ => encDsi_masked _ _ _ _ _⟩

theorem Laws.Fields.andi (rd : RegNum) (rs1 : RegNum) (imm : Imm12) : Laws.Fields.Statement (.andi rd rs1 imm) :=
  ⟨⟨"ANDI", 0xFC00F000, 0x04002000, .base, true, true, false⟩, by decide, rfl, rfl,
    fun _ => encDsi_masked _ _ _ _ _⟩

theorem Laws.Fields.ori (rd : RegNum) (rs1 : RegNum) (imm : Imm12) : Laws.Fields.Statement (.ori rd rs1 imm) :=
  ⟨⟨"ORI", 0xFC00F000, 0x04003000, .base, true, true, false⟩, by decide, rfl, rfl,
    fun _ => encDsi_masked _ _ _ _ _⟩

theorem Laws.Fields.xori (rd : RegNum) (rs1 : RegNum) (imm : Imm12) : Laws.Fields.Statement (.xori rd rs1 imm) :=
  ⟨⟨"XORI", 0xFC00F000, 0x04004000, .base, true, true, false⟩, by decide, rfl, rfl,
    fun _ => encDsi_masked _ _ _ _ _⟩

theorem Laws.Fields.shri (rd : RegNum) (rs1 : RegNum) (imm : Imm12) : Laws.Fields.Statement (.shri rd rs1 imm) :=
  ⟨⟨"SHRI", 0xFC00F000, 0x04005000, .base, true, true, false⟩, by decide, rfl, rfl,
    fun _ => encDsi_masked _ _ _ _ _⟩

theorem Laws.Fields.asri (rd : RegNum) (rs1 : RegNum) (imm : Imm12) : Laws.Fields.Statement (.asri rd rs1 imm) :=
  ⟨⟨"ASRI", 0xFC00F000, 0x04006000, .base, true, true, false⟩, by decide, rfl, rfl,
    fun _ => encDsi_masked _ _ _ _ _⟩

theorem Laws.Fields.shli (rd : RegNum) (rs1 : RegNum) (imm : Imm12) : Laws.Fields.Statement (.shli rd rs1 imm) :=
  ⟨⟨"SHLI", 0xFC00F000, 0x04007000, .base, true, true, false⟩, by decide, rfl, rfl,
    fun _ => encDsi_masked _ _ _ _ _⟩

theorem Laws.Fields.cchi (rd : RegNum) (rs1 : RegNum) (imm : Imm12) : Laws.Fields.Statement (.cchi rd rs1 imm) :=
  ⟨⟨"CCHI", 0xFC00F000, 0x04008000, .base, true, true, false⟩, by decide, rfl, rfl,
    fun _ => encDsi_masked _ _ _ _ _⟩

theorem Laws.Fields.bchi (rd : RegNum) (rs1 : RegNum) (imm : Imm12) : Laws.Fields.Statement (.bchi rd rs1 imm) :=
  ⟨⟨"BCHI", 0xFC00F000, 0x04009000, .base, true, true, false⟩, by decide, rfl, rfl,
    fun _ => encDsi_masked _ _ _ _ _⟩

theorem Laws.Fields.lui (rd : RegNum) (imm : Imm21) : Laws.Fields.Statement (.lui rd imm) :=
  ⟨⟨"LUI", 0xFC000000, 0x08000000, .base, true, false, false⟩, by decide, rfl, rfl,
    fun _ => encDi_masked _ _ _⟩

theorem Laws.Fields.stb (rs1 : RegNum) (rs2 : RegNum) (imm : Imm12) : Laws.Fields.Statement (.stb rs1 rs2 imm) :=
  ⟨⟨"STB", 0xFC00F000, 0x0C000000, .base, false, true, true⟩, by decide, rfl, rfl,
    fun _ => encSsi_masked _ _ _ _ _⟩

theorem Laws.Fields.stw (rs1 : RegNum) (rs2 : RegNum) (imm : Imm12) : Laws.Fields.Statement (.stw rs1 rs2 imm) :=
  ⟨⟨"STW", 0xFC00F000, 0x0C001000, .base, false, true, true⟩, by decide, rfl, rfl,
    fun _ => encSsi_masked _ _ _ _ _⟩

theorem Laws.Fields.std (rs1 : RegNum) (rs2 : RegNum) (imm : Imm12) : Laws.Fields.Statement (.std rs1 rs2 imm) :=
  ⟨⟨"STD", 0xFC00F000, 0x0C002000, .base, false, true, true⟩, by decide, rfl, rfl,
    fun _ => encSsi_masked _ _ _ _ _⟩

theorem Laws.Fields.stq (rs1 : RegNum) (rs2 : RegNum) (imm : Imm12) : Laws.Fields.Statement (.stq rs1 rs2 imm) :=
  ⟨⟨"STQ", 0xFC00F000, 0x0C003000, .srm64, false, true, true⟩, by decide, rfl, rfl,
    fun _ => encSsi_masked _ _ _ _ _⟩

theorem Laws.Fields.ldb (rd : RegNum) (rs1 : RegNum) (imm : Imm12) : Laws.Fields.Statement (.ldb rd rs1 imm) :=
  ⟨⟨"LDB", 0xFC00F000, 0x10000000, .base, true, true, false⟩, by decide, rfl, rfl,
    fun _ => encDsi_masked _ _ _ _ _⟩

theorem Laws.Fields.ldw (rd : RegNum) (rs1 : RegNum) (imm : Imm12) : Laws.Fields.Statement (.ldw rd rs1 imm) :=
  ⟨⟨"LDW", 0xFC00F000, 0x10001000, .base, true, true, false⟩, by decide, rfl, rfl,
    fun _ => encDsi_masked _ _ _ _ _⟩

theorem Laws.Fields.ldd (rd : RegNum) (rs1 : RegNum) (imm : Imm12) : Laws.Fields.Statement (.ldd rd rs1 imm) :=
  ⟨⟨"LDD", 0xFC00F000, 0x10002000, .base, true, true, false⟩, by decide, rfl, rfl,
    fun _ => encDsi_masked _ _ _ _ _⟩

theorem Laws.Fields.ldq (rd : RegNum) (rs1 : RegNum) (imm : Imm12) : Laws.Fields.Statement (.ldq rd rs1 imm) :=
  ⟨⟨"LDQ", 0xFC00F000, 0x10003000, .srm64, true, true, false⟩, by decide, rfl, rfl,
    fun _ => encDsi_masked _ _ _ _ _⟩

theorem Laws.Fields.ldsb (rd : RegNum) (rs1 : RegNum) (imm : Imm12) : Laws.Fields.Statement (.ldsb rd rs1 imm) :=
  ⟨⟨"LDSB", 0xFC00F000, 0x10004000, .base, true, true, false⟩, by decide, rfl, rfl,
    fun _ => encDsi_masked _ _ _ _ _⟩

theorem Laws.Fields.ldsw (rd : RegNum) (rs1 : RegNum) (imm : Imm12) : Laws.Fields.Statement (.ldsw rd rs1 imm) :=
  ⟨⟨"LDSW", 0xFC00F000, 0x10005000, .base, true, true, false⟩, by decide, rfl, rfl,
    fun _ => encDsi_masked _ _ _ _ _⟩

theorem Laws.Fields.ldsd (rd : RegNum) (rs1 : RegNum) (imm : Imm12) : Laws.Fields.Statement (.ldsd rd rs1 imm) :=
  ⟨⟨"LDSD", 0xFC00F000, 0x10006000, .srm64, true, true, false⟩, by decide, rfl, rfl,
    fun _ => encDsi_masked _ _ _ _ _⟩

theorem Laws.Fields.jal (rd : RegNum) (imm : Imm21) : Laws.Fields.Statement (.jal rd imm) :=
  ⟨⟨"JAL", 0xFC000000, 0x14000000, .base, true, false, false⟩, by decide, rfl, rfl,
    fun _ => encDi_masked _ _ _⟩

theorem Laws.Fields.jalr (rd : RegNum) (rs1 : RegNum) (imm : Imm12) : Laws.Fields.Statement (.jalr rd rs1 imm) :=
  ⟨⟨"JALR", 0xFC00F000, 0x18000000, .base, true, true, false⟩, by decide, rfl, rfl,
    fun _ => encDsi_masked _ _ _ _ _⟩

theorem Laws.Fields.jeq (rs1 : RegNum) (rs2 : RegNum) (imm : Imm12) : Laws.Fields.Statement (.jeq rs1 rs2 imm) :=
  ⟨⟨"JEQ", 0xFC00F000, 0x1C000000, .base, false, true, true⟩, by decide, rfl, rfl,
    fun _ => encSsi_masked _ _ _ _ _⟩

theorem Laws.Fields.jlt (rs1 : RegNum) (rs2 : RegNum) (imm : Imm12) : Laws.Fields.Statement (.jlt rs1 rs2 imm) :=
  ⟨⟨"JLT", 0xFC00F000, 0x1C001000, .base, false, true, true⟩, by decide, rfl, rfl,
    fun _ => encSsi_masked _ _ _ _ _⟩

theorem Laws.Fields.jslt (rs1 : RegNum) (rs2 : RegNum) (imm : Imm12) : Laws.Fields.Statement (.jslt rs1 rs2 imm) :=
  ⟨⟨"JSLT", 0xFC00F000, 0x1C002000, .base, false, true, true⟩, by decide, rfl, rfl,
    fun _ => encSsi_masked _ _ _ _ _⟩

theorem Laws.Fields.jne (rs1 : RegNum) (rs2 : RegNum) (imm : Imm12) : Laws.Fields.Statement (.jne rs1 rs2 imm) :=
  ⟨⟨"JNE", 0xFC00F000, 0x1C004000, .base, false, true, true⟩, by decide, rfl, rfl,
    fun _ => encSsi_masked _ _ _ _ _⟩

theorem Laws.Fields.jge (rs1 : RegNum) (rs2 : RegNum) (imm : Imm12) : Laws.Fields.Statement (.jge rs1 rs2 imm) :=
  ⟨⟨"JGE", 0xFC00F000, 0x1C005000, .base, false, true, true⟩, by decide, rfl, rfl,
    fun _ => encSsi_masked _ _ _ _ _⟩

theorem Laws.Fields.jsge (rs1 : RegNum) (rs2 : RegNum) (imm : Imm12) : Laws.Fields.Statement (.jsge rs1 rs2 imm) :=
  ⟨⟨"JSGE", 0xFC00F000, 0x1C006000, .base, false, true, true⟩, by decide, rfl, rfl,
    fun _ => encSsi_masked _ _ _ _ _⟩

theorem Laws.Fields.syscall : Laws.Fields.Statement .syscall :=
  ⟨⟨"SYSCALL", 0xFFFFFFFF, 0x20000000, .system, false, false, false⟩, by decide, rfl, rfl,
    fun _ => by
    show encDss 0x08 0 0 0x0 0 0 &&& 0xFFFFFFFF = 0x20000000
    decide⟩

theorem Laws.Fields.sysret : Laws.Fields.Statement .sysret :=
  ⟨⟨"SYSRET", 0xFFFFFFFF, 0x24000000, .system, false, false, false⟩, by decide, rfl, rfl,
    fun _ => by
    show encDss 0x09 0 0 0x0 0 0 &&& 0xFFFFFFFF = 0x24000000
    decide⟩

theorem Laws.Fields.csrw (rs1 : RegNum) (n : CsrNum) : Laws.Fields.Statement (.csrw rs1 n) :=
  ⟨⟨"CSRW", 0xFFE0F000, 0x28000000, .system, false, true, false⟩, by decide, rfl, rfl,
    fun f => by
    obtain ⟨imm, e⟩ := encCsr_eq f 0 rs1 0x0 n
    exact (congrArg (· &&& 0xFFE0F000) e).trans (encDsi_masked_csrw _ _ _ _ _)⟩

theorem Laws.Fields.csrr (rd : RegNum) (n : CsrNum) : Laws.Fields.Statement (.csrr rd n) :=
  ⟨⟨"CSRR", 0xFC1FF000, 0x28001000, .system, true, false, false⟩, by decide, rfl, rfl,
    fun f => by
    obtain ⟨imm, e⟩ := encCsr_eq f rd 0 0x1 n
    exact (congrArg (· &&& 0xFC1FF000) e).trans (encDsi_masked_csrr _ _ _ _ _)⟩

theorem Laws.Fields.mul (rd : RegNum) (rs1 : RegNum) (rs2 : RegNum) : Laws.Fields.Statement (.mul rd rs1 rs2) :=
  ⟨⟨"MUL", 0xFC00F07F, 0x2C000000, .mulDiv, true, true, true⟩, by decide, rfl, rfl,
    fun _ => encDss_masked _ _ _ _ _ _⟩

theorem Laws.Fields.smul (rd : RegNum) (rs1 : RegNum) (rs2 : RegNum) : Laws.Fields.Statement (.smul rd rs1 rs2) :=
  ⟨⟨"SMUL", 0xFC00F07F, 0x2C001000, .mulDiv, true, true, true⟩, by decide, rfl, rfl,
    fun _ => encDss_masked _ _ _ _ _ _⟩

theorem Laws.Fields.mulh (rd : RegNum) (rs1 : RegNum) (rs2 : RegNum) : Laws.Fields.Statement (.mulh rd rs1 rs2) :=
  ⟨⟨"MULH", 0xFC00F07F, 0x2C002000, .mulDiv, true, true, true⟩, by decide, rfl, rfl,
    fun _ => encDss_masked _ _ _ _ _ _⟩

theorem Laws.Fields.smulh (rd : RegNum) (rs1 : RegNum) (rs2 : RegNum) : Laws.Fields.Statement (.smulh rd rs1 rs2) :=
  ⟨⟨"SMULH", 0xFC00F07F, 0x2C003000, .mulDiv, true, true, true⟩, by decide, rfl, rfl,
    fun _ => encDss_masked _ _ _ _ _ _⟩

theorem Laws.Fields.div (rd : RegNum) (rs1 : RegNum) (rs2 : RegNum) : Laws.Fields.Statement (.div rd rs1 rs2) :=
  ⟨⟨"DIV", 0xFC00F07F, 0x2C004000, .mulDiv, true, true, true⟩, by decide, rfl, rfl,
    fun _ => encDss_masked _ _ _ _ _ _⟩

theorem Laws.Fields.sdiv (rd : RegNum) (rs1 : RegNum) (rs2 : RegNum) : Laws.Fields.Statement (.sdiv rd rs1 rs2) :=
  ⟨⟨"SDIV", 0xFC00F07F, 0x2C005000, .mulDiv, true, true, true⟩, by decide, rfl, rfl,
    fun _ => encDss_masked _ _ _ _ _ _⟩

theorem Laws.Fields.mod (rd : RegNum) (rs1 : RegNum) (rs2 : RegNum) : Laws.Fields.Statement (.mod rd rs1 rs2) :=
  ⟨⟨"MOD", 0xFC00F07F, 0x2C006000, .mulDiv, true, true, true⟩, by decide, rfl, rfl,
    fun _ => encDss_masked _ _ _ _ _ _⟩

theorem Laws.Fields.smod (rd : RegNum) (rs1 : RegNum) (rs2 : RegNum) : Laws.Fields.Statement (.smod rd rs1 rs2) :=
  ⟨⟨"SMOD", 0xFC00F07F, 0x2C007000, .mulDiv, true, true, true⟩, by decide, rfl, rfl,
    fun _ => encDss_masked _ _ _ _ _ _⟩

end Sys2Proof
end

