-- ==== Sys2Proof/Tests/Slice0.lean ====
section
/-! SUPPORT. Tests. The expected results come from spec/95_test_vectors.md, from the examples of the rules and from the
encodings worked by hand in 30_encoding.md R103. The last part shows, for each statement with hypotheses, a state and
operands that meet them. -/

namespace Sys2Proof.Tests

open Sys2Proof Sys2Proof.Machine

/-! ## Well-formedness: what each check refuses -/

/-- A configuration with no extension. -/
def bare : Config := { Config.srm32sm with extS := false, extM := false }

/-- SRM32SMH. -/
def reduced : Config := { Config.srm32sm with extH := true }

/-- SRM32SM with the CSR number in the `rs2` field. -/
def rs2Csr : Config := { Config.srm32sm with csrField := .rs2field }

theorem test_wf_system_needs_S : Instr.wellFormed .syscall bare = false := by decide

theorem test_wf_csr_needs_S : Instr.wellFormed (.csrr 7 1) bare = false := by decide

theorem test_wf_mul_needs_M : Instr.wellFormed (.mul 7 8 9) bare = false := by decide

theorem test_wf_stq_needs_srm64 : Instr.wellFormed (.stq 7 8 0) .srm32sm = false := by decide

theorem test_wf_ldsd_needs_srm64 : Instr.wellFormed (.ldsd 7 8 0) .srm32sm = false := by decide

theorem test_wf_removed_rd : Instr.wellFormed (.add 16 8 9) reduced = false := by decide

theorem test_wf_removed_rs1 : Instr.wellFormed (.add 7 16 9) reduced = false := by decide

theorem test_wf_removed_rs2 : Instr.wellFormed (.stb 7 31 0) reduced = false := by decide

theorem test_wf_last_register : Instr.wellFormed (.add 15 15 15) reduced = true := by decide

theorem test_wf_csr_number_rs2field :
    Instr.wellFormed (.csrw 7 32) rs2Csr = false ∧ Instr.wellFormed (.csrw 7 31) rs2Csr = true := by decide

theorem test_config_srm64_needs_S : Config.valid { Config.srm64sm with extS := false } = false := by decide

theorem test_config_needs_code_at_zero :
    Config.valid { Config.srm32sm with memMap := [⟨4, 4096, .ram⟩] } = false := by decide

theorem test_config_device_at_zero :
    Config.valid { Config.srm32sm with memMap := [⟨0, 4096, .device 1⟩] } = false := by decide

theorem test_config_rom_at_zero : Config.valid { Config.srm32sm with memMap := [⟨0, 4096, .rom⟩] } = true := by decide

/-- 00_scope.md R2; 95_test_vectors.md section 1.1. -/
theorem test_variant_name : Variant.name ⟨.x64, [.S, .M, .A, .L, .F, .Zmo, .Zvm]⟩ = "SRM64SMALFZmoZvm" := by decide

theorem test_variant_in_progress : Variant.config? ⟨.x32, [.S, .M, .A]⟩ .srm32sm = none := by decide

theorem test_variant_small : (Variant.config? ⟨.x32, [.H]⟩ .srm32sm).map Config.nregs = some 16 := by decide

/-! ## Decoding: a word of every instruction, as the spec writes it out -/

theorem test_decode_add : decode .srm64sm 0x00E80480 = .ok (.add 7 8 9) := by decide

theorem test_decode_sub : decode .srm64sm 0x00E81480 = .ok (.sub 7 8 9) := by decide

theorem test_decode_and : decode .srm64sm 0x00E82480 = .ok (.and 7 8 9) := by decide

theorem test_decode_or : decode .srm64sm 0x00E83480 = .ok (.or 7 8 9) := by decide

theorem test_decode_xor : decode .srm64sm 0x00E84480 = .ok (.xor 7 8 9) := by decide

theorem test_decode_shr : decode .srm64sm 0x00E85480 = .ok (.shr 7 8 9) := by decide

theorem test_decode_asr : decode .srm64sm 0x00E86480 = .ok (.asr 7 8 9) := by decide

theorem test_decode_shl : decode .srm64sm 0x00E87480 = .ok (.shl 7 8 9) := by decide

theorem test_decode_cch : decode .srm64sm 0x00E88480 = .ok (.cch 7 8 9) := by decide

theorem test_decode_bch : decode .srm64sm 0x00E89480 = .ok (.bch 7 8 9) := by decide

theorem test_decode_addi : decode .srm64sm 0x04E80FFF = .ok (.addi 7 8 (-1)) := by decide

theorem test_decode_andi : decode .srm64sm 0x04E82FF0 = .ok (.andi 7 8 (-16)) := by decide

theorem test_decode_ori : decode .srm64sm 0x04E830F0 = .ok (.ori 7 8 240) := by decide

theorem test_decode_xori : decode .srm64sm 0x04E84FFF = .ok (.xori 7 8 (-1)) := by decide

theorem test_decode_shri : decode .srm64sm 0x04E8501F = .ok (.shri 7 8 31) := by decide

theorem test_decode_asri : decode .srm64sm 0x04E86004 = .ok (.asri 7 8 4) := by decide

theorem test_decode_shli : decode .srm64sm 0x04E8700B = .ok (.shli 7 8 11) := by decide

theorem test_decode_cchi : decode .srm64sm 0x04E887FF = .ok (.cchi 7 8 2047) := by decide

theorem test_decode_bchi : decode .srm64sm 0x04E89005 = .ok (.bchi 7 8 5) := by decide

theorem test_decode_lui : decode .srm64sm 0x08E12345 = .ok (.lui 7 0x12345) := by decide

theorem test_decode_stb : decode .srm64sm 0x0FE803FF = .ok (.stb 8 7 (-1)) := by decide

theorem test_decode_stw : decode .srm64sm 0x0C081383 = .ok (.stw 8 7 3) := by decide

theorem test_decode_std : decode .srm64sm 0x0FE523FC = .ok (.std 5 7 (-4)) := by decide

theorem test_decode_stq : decode .srm64sm 0x0C083388 = .ok (.stq 8 7 8) := by decide

theorem test_decode_ldb : decode .srm64sm 0x10E80FFF = .ok (.ldb 7 8 (-1)) := by decide

theorem test_decode_ldw : decode .srm64sm 0x10E81006 = .ok (.ldw 7 8 6) := by decide

theorem test_decode_ldd : decode .srm64sm 0x10E82800 = .ok (.ldd 7 8 (-2048)) := by decide

theorem test_decode_ldq : decode .srm64sm 0x10E83000 = .ok (.ldq 7 8 0) := by decide

theorem test_decode_ldsb : decode .srm64sm 0x10E84003 = .ok (.ldsb 7 8 3) := by decide

theorem test_decode_ldsw : decode .srm64sm 0x10E85007 = .ok (.ldsw 7 8 7) := by decide

theorem test_decode_ldsd : decode .srm64sm 0x10E86000 = .ok (.ldsd 7 8 0) := by decide

theorem test_decode_jal : decode .srm64sm 0x149FFFF8 = .ok (.jal 4 (-8)) := by decide

theorem test_decode_jalr : decode .srm64sm 0x188D0004 = .ok (.jalr 4 13 4) := by decide

theorem test_decode_jeq : decode .srm64sm 0x1DE0007C = .ok (.jeq 0 0 2044) := by decide

theorem test_decode_jlt : decode .srm64sm 0x1C07140C = .ok (.jlt 7 8 12) := by decide

theorem test_decode_jslt : decode .srm64sm 0x1C07240C = .ok (.jslt 7 8 12) := by decide

theorem test_decode_jne : decode .srm64sm 0x1FE74078 = .ok (.jne 7 0 (-8)) := by decide

theorem test_decode_jge : decode .srm64sm 0x1C08538C = .ok (.jge 8 7 12) := by decide

theorem test_decode_jsge : decode .srm64sm 0x1C07640C = .ok (.jsge 7 8 12) := by decide

theorem test_decode_syscall : decode .srm64sm 0x20000000 = .ok .syscall := by decide

theorem test_decode_sysret : decode .srm64sm 0x24000000 = .ok .sysret := by decide

theorem test_decode_csrw : decode .srm64sm 0x28070FFF = .ok (.csrw 7 4095) := by decide

theorem test_decode_csrr : decode .srm64sm 0x28E01800 = .ok (.csrr 7 2048) := by decide

theorem test_decode_mul : decode .srm64sm 0x2CE80480 = .ok (.mul 7 8 9) := by decide

theorem test_decode_smul : decode .srm64sm 0x2CE81480 = .ok (.smul 7 8 9) := by decide

theorem test_decode_mulh : decode .srm64sm 0x2CE82480 = .ok (.mulh 7 8 9) := by decide

theorem test_decode_smulh : decode .srm64sm 0x2CE83480 = .ok (.smulh 7 8 9) := by decide

theorem test_decode_div : decode .srm64sm 0x2CE84480 = .ok (.div 7 8 9) := by decide

theorem test_decode_sdiv : decode .srm64sm 0x2CE85480 = .ok (.sdiv 7 8 9) := by decide

theorem test_decode_mod : decode .srm64sm 0x2CE86480 = .ok (.mod 7 8 9) := by decide

theorem test_decode_smod : decode .srm64sm 0x2CE87480 = .ok (.smod 7 8 9) := by decide

/-- 30_encoding.md R106. -/
theorem test_decode_csrw_rs2field : decode rs2Csr 0x28070280 = .ok (.csrw 7 5) := by decide

/-- Big-endian, four bytes, the rest is left (20_memory.md R62). -/
theorem test_decode_bytes :
    decodeBytes .srm32sm [0x04, 0xE8, 0x0F, 0xFF, 0x2A] = .ok (.addi 7 8 (-1), [0x2A]) := by decide

theorem test_decode_too_short : decodeBytes .srm32sm [0x04, 0xE8, 0x0F] = .error .tooShort := by decide

theorem test_table_word : decodeTableWord 32 0x04E80FFF = some (.addi 7 8 (-1)) := by decide

/-- The words of 95_test_vectors.md section 2.8, on SRM32SM. -/
theorem test_reserved_words :
    ([0x00000001, 0x0000007F, 0x0000A000, 0x0000F000, 0x04001000, 0x0400A000, 0x0C003000, 0x0C004000, 0x10003000,
      0x10006000, 0x10007000, 0x18001000, 0x1C003000, 0x1C007000, 0x20000001, 0x20001000, 0x20200000, 0x20010000,
      0x20000080, 0x24000001, 0x24200000, 0x28002000, 0x28200005, 0x28011005, 0x2C008000, 0x2C000001, 0x30000000,
      0x80000000, 0xFFFFFFFF] : List InstrWord).all (fun x => (decode .srm32sm x).toOption == none) = true := by
  decide

/-- The words of 95_test_vectors.md section 2.9: refused with H, and those that run with it. -/
theorem test_removed_register_words :
    ([0x02080480, 0x00F00480, 0x00E80800, 0x0A000001, 0x16000008, 0x12882000] : List InstrWord).all
        (fun x => decode reduced x == .error .removedRegister && (decode .srm32sm x).toOption.isSome) = true ∧
      ([0x01EF0780, 0x04E80FFF, 0x0FE803FF, 0x1FE00078] : List InstrWord).all
        (fun x => (decode reduced x).toOption.isSome) = true := by
  decide

/-! ## One step -/

/-- A state of SRM32SM at `pc = 0x100`, with registers set. -/
def start (c : Config) (regs : List (RegNum × Word64)) : State :=
  regs.foldl (fun s r => s.setReg r.1 r.2) { State.resetFor c with pc := 0x100 }

/-- The state with Q = 1, on SRM64. -/
def quad (s : State) : State := { s with msr := 2 }

/-- The state in User mode. -/
def user (s : State) : State := { s with pvg := 0 }

/-- The state with bytes of memory from an address on. -/
def withBytes (s : State) (a : Nat) (bytes : List Byte) : State :=
  { s with mem := (bytes.zipIdx.map fun b => (a + b.2, b.1)).foldl (fun m c => Memory.write m c.1 c.2) s.mem }

/-- The state a step answers. -/
def next? (o : Host.Outcome State Fault Refusal) : Option State :=
  match o with
  | .next t => some t
  | .fault _ | .refused _ => none

/-- The fault a step answers. -/
def fault? (o : Host.Outcome State Fault Refusal) : Option Fault :=
  match o with
  | .fault f => some f
  | .next _ | .refused _ => none

/-- One step of a word. -/
def run (s : State) (w : Nat) : Host.Outcome State Fault Refusal := step (s.withFetchWord 32 w)

/-- What is read off the state after one step of a word. -/
def after {α : Type} (s : State) (w : Nat) (read : State → α) : Option α := (next? (run s w)).map read

/-- The listed bytes of memory from 0x1000 on. -/
def data (s : State) : List Host.Cell := s.mem.filter fun c => decide (0x1000 ≤ c.1)

/-- The bytes of the loads' memory image (95_test_vectors.md section 2.3). -/
def image : List Byte := [0x80, 0x01, 0x7F, 0xFE, 0x12, 0x34, 0xF6, 0x78]

theorem test_add_wraps :
    after (start .srm32sm [(8, 0xFFFFFFFF), (9, 1)]) 0x00E80480 (fun t => (t.reg 7, t.pc)) =
      some (0, 0x104) := by decide

theorem test_add_zr : after (start .srm32sm [(8, 1), (9, 2)]) 0x00080480 (fun t => t.reg 0) = some 0 := by decide

theorem test_sub_borrows :
    after (start .srm32sm [(8, 0), (9, 1)]) 0x00E81480 (fun t => (t.reg 7, t.pc)) =
      some (0xFFFFFFFF, 0x104) := by decide

theorem test_sub_aliased :
    after (start .srm32sm [(7, 3), (8, 10)]) 0x00E81380 (fun t => t.reg 7) = some 7 := by decide

theorem test_and :
    after (start .srm32sm [(8, 0xF0F0F0F0), (9, 0x0FF00FF0)]) 0x00E82480 (fun t => (t.reg 7, t.pc)) =
      some (0x00F000F0, 0x104) := by decide

theorem test_or :
    after (start .srm32sm [(8, 0xF0F0F0F0), (9, 0x0FF00FF0)]) 0x00E83480 (fun t => (t.reg 7, t.pc)) =
      some (0xFFF0FFF0, 0x104) := by decide

theorem test_xor :
    after (start .srm32sm [(8, 0xF0F0F0F0), (9, 0x0FF00FF0)]) 0x00E84480 (fun t => (t.reg 7, t.pc)) =
      some (0xFF00FF00, 0x104) := by decide

theorem test_shr :
    after (start .srm32sm [(8, 0x80000000), (9, 4)]) 0x00E85480 (fun t => (t.reg 7, t.pc)) =
      some (0x08000000, 0x104) := by decide

theorem test_asr :
    after (start .srm32sm [(8, 0x80000000), (9, 4)]) 0x00E86480 (fun t => (t.reg 7, t.pc)) =
      some (0xF8000000, 0x104) := by decide

theorem test_shl :
    after (start .srm32sm [(8, 0x80000001), (9, 1)]) 0x00E87480 (fun t => (t.reg 7, t.pc)) =
      some (2, 0x104) := by decide

theorem test_shr_over_width :
    after (start { Config.srm32sm with shiftOver := .full } [(8, 0x80000001), (9, 33)]) 0x00E85480 (fun t => t.reg 7) =
      some 0 ∧
    after (start { Config.srm32sm with shiftOver := .masked } [(8, 0x80000001), (9, 33)]) 0x00E85480 (fun t => t.reg 7) =
      some 0x40000000 := by decide

theorem test_asr_over_width :
    after (start { Config.srm32sm with shiftOver := .full } [(8, 0x80000001), (9, 33)]) 0x00E86480 (fun t => t.reg 7) =
      some 0xFFFFFFFF ∧
    after (start { Config.srm32sm with shiftOver := .masked } [(8, 0x80000001), (9, 33)]) 0x00E86480 (fun t => t.reg 7) =
      some 0xC0000000 := by decide

theorem test_shl_over_width :
    after (start { Config.srm32sm with shiftOver := .full } [(8, 0x80000001), (9, 33)]) 0x00E87480 (fun t => t.reg 7) =
      some 0 ∧
    after (start { Config.srm32sm with shiftOver := .masked } [(8, 0x80000001), (9, 33)]) 0x00E87480 (fun t => t.reg 7) =
      some 2 := by decide

theorem test_cch :
    after (start .srm32sm [(8, 0x80000000), (9, 0x80000000)]) 0x00E88480 (fun t => (t.reg 7, t.pc)) =
      some (1, 0x104) := by decide

theorem test_cch_none :
    after (start .srm32sm [(8, 0x7FFFFFFF), (9, 1)]) 0x00E88480 (fun t => (t.reg 7, t.pc)) =
      some (0, 0x104) := by decide

theorem test_bch :
    after (start .srm32sm [(8, 0), (9, 1)]) 0x00E89480 (fun t => (t.reg 7, t.pc)) = some (1, 0x104) := by decide

theorem test_bch_unsigned :
    after (start .srm32sm [(8, 0x80000000), (9, 1)]) 0x00E89480 (fun t => (t.reg 7, t.pc)) =
      some (0, 0x104) := by decide

theorem test_addi :
    after (start .srm32sm [(8, 0)]) 0x04E80800 (fun t => (t.reg 7, t.pc)) = some (0xFFFFF800, 0x104) := by decide

theorem test_addi_wide :
    after (quad (start .srm64sm [(8, 0x00000000FFFFFFFF)])) 0x04E80001 (fun t => t.reg 7) =
      some 0x0000000100000000 := by decide

theorem test_andi :
    after (start .srm32sm [(8, 0x12345678)]) 0x04E82FF0 (fun t => (t.reg 7, t.pc)) =
      some (0x12345670, 0x104) := by decide

theorem test_ori :
    after (start .srm32sm [(8, 0)]) 0x04E83800 (fun t => (t.reg 7, t.pc)) = some (0xFFFFF800, 0x104) := by decide

theorem test_xori :
    after (start .srm32sm [(8, 0x12345678)]) 0x04E84FFF (fun t => (t.reg 7, t.pc)) =
      some (0xEDCBA987, 0x104) := by decide

theorem test_shri :
    after (start .srm32sm [(8, 0x80000000)]) 0x04E8501F (fun t => (t.reg 7, t.pc)) = some (1, 0x104) := by decide

theorem test_asri :
    after (start .srm32sm [(8, 0x80000000)]) 0x04E8601F (fun t => (t.reg 7, t.pc)) =
      some (0xFFFFFFFF, 0x104) := by decide

theorem test_shli :
    after (start .srm32sm [(8, 0xFFFFFFFF)]) 0x04E87010 (fun t => (t.reg 7, t.pc)) =
      some (0xFFFF0000, 0x104) := by decide

theorem test_cchi :
    after (start .srm32sm [(8, 1)]) 0x04E88FFF (fun t => (t.reg 7, t.pc)) = some (1, 0x104) := by decide

theorem test_bchi :
    after (start .srm32sm [(8, 0xFFFFFFFF)]) 0x04E89FFF (fun t => (t.reg 7, t.pc)) = some (0, 0x104) := by decide

theorem test_lui : after (start .srm32sm []) 0x08F00000 (fun t => t.reg 7) = some 0x80000000 := by decide

theorem test_lui_wide :
    after (quad (start .srm64sm [])) 0x08F00000 (fun t => t.reg 7) = some 0xFFFFFFFF80000000 := by decide

theorem test_stb :
    after (start .srm32sm [(7, 0xAABBCCDD), (8, 0x1004)]) 0x0FE803FF (fun t => data t) =
      some [(0x1003, 0xDD)] := by decide

theorem test_stw :
    after (start .srm32sm [(7, 0xAABBCCDD), (8, 0x1004)]) 0x0C081383 (fun t => data t) =
      some [(0x1006, 0xCC), (0x1007, 0xDD)] := by decide

theorem test_std :
    after (start .srm32sm [(7, 0xAABBCCDD), (8, 0x1004)]) 0x0C082386 (fun t => data t) =
      some [(0x1008, 0xAA), (0x1009, 0xBB), (0x100A, 0xCC), (0x100B, 0xDD)] := by decide

theorem test_stq :
    after (start .srm64sm [(7, 0x1122334455667788), (8, 0x1003)]) 0x0C083388 (fun t => data t) =
      some [(0x1008, 0x11), (0x1009, 0x22), (0x100A, 0x33), (0x100B, 0x44), (0x100C, 0x55), (0x100D, 0x66), (0x100E, 0x77),
      (0x100F, 0x88)] := by decide

theorem test_ldb :
    after (withBytes (start .srm32sm [(8, 0x1008)]) 0x1000 image) 0x10E80FFF (fun t => t.reg 7) =
      some 0x78 := by decide

theorem test_ldsb :
    after (withBytes (start .srm32sm [(8, 0x1000)]) 0x1000 image) 0x10E84003 (fun t => t.reg 7) =
      some 0xFFFFFFFE := by decide

theorem test_ldw_forced :
    after (withBytes (start .srm32sm [(8, 0x1000)]) 0x1000 image) 0x10E81001 (fun t => t.reg 7) =
      some 0x8001 := by decide

theorem test_ldsw_forced :
    after (withBytes (start .srm32sm [(8, 0x1000)]) 0x1000 image) 0x10E85003 (fun t => t.reg 7) =
      some 0x7FFE := by decide

theorem test_ldd_forced :
    after (withBytes (start .srm32sm [(8, 0x1000)]) 0x1000 image) 0x10E82007 (fun t => t.reg 7) =
      some 0x1234F678 := by decide

theorem test_ldd_negative_offset :
    after (withBytes (start .srm32sm [(8, 0x1804)]) 0x1000 image) 0x10E82800 (fun t => t.reg 7) =
      some 0x1234F678 := by decide

theorem test_ldq :
    after (withBytes (start .srm64sm [(8, 0x1000)]) 0x1000 image) 0x10E83000 (fun t => t.reg 7) =
      some 0x80017FFE1234F678 := by decide

theorem test_ldsd :
    after (withBytes (start .srm64sm [(8, 0x1000)]) 0x1000 image) 0x10E86000 (fun t => t.reg 7) =
      some 0xFFFFFFFF80017FFE := by decide

theorem test_ldsb_wide :
    after (withBytes (start .srm64sm [(8, 0x1000)]) 0x1000 image) 0x10E84000 (fun t => t.reg 7) =
      some 0xFFFFFFFFFFFFFF80 := by decide

theorem test_jal_backward :
    after { start .srm32sm [] with pc := 4 } 0x149FFFF8 (fun t => (t.reg 4, t.pc)) = some (8, 0xFFFFFFFC) := by decide

theorem test_jal_link_wraps :
    after { start .srm32sm [] with pc := 0xFFFFFFFC } 0x14800008 (fun t => (t.reg 4, t.pc)) = some (0, 4) := by decide

theorem test_jalr_aliased :
    after { start .srm32sm [(4, 0x300)] with pc := 0x200 } 0x18840000 (fun t => (t.reg 4, t.pc)) =
      some (0x204, 0x300) := by decide

theorem test_jalr_wide :
    after (quad { start .srm64sm [(13, 0x00000000FFFFFFFF)] with pc := 0x200 }) 0x188D0001 (fun t => (t.reg 4, t.pc)) =
      some (0x204, 0x100000000) := by decide

theorem test_jeq :
    after { start .srm32sm [(7, 5), (8, 5)] with pc := 0x20 } 0x1C07040C (fun t => t.pc) = some 0x2C := by decide

theorem test_jeq_not :
    after { start .srm32sm [(7, 1), (8, 0xFFFFFFFF)] with pc := 0x20 } 0x1C07040C (fun t => t.pc) =
      some 0x24 := by decide

theorem test_jlt :
    after { start .srm32sm [(7, 1), (8, 0xFFFFFFFF)] with pc := 0x20 } 0x1C07140C (fun t => t.pc) =
      some 0x2C := by decide

theorem test_jlt_not :
    after { start .srm32sm [(7, 5), (8, 5)] with pc := 0x20 } 0x1C07140C (fun t => t.pc) = some 0x24 := by decide

theorem test_jslt :
    after { start .srm32sm [(7, 0xFFFFFFFF), (8, 1)] with pc := 0x20 } 0x1C07240C (fun t => t.pc) =
      some 0x2C := by decide

theorem test_jslt_not :
    after { start .srm32sm [(7, 1), (8, 0xFFFFFFFF)] with pc := 0x20 } 0x1C07240C (fun t => t.pc) =
      some 0x24 := by decide

theorem test_jne :
    after { start .srm32sm [(7, 5), (8, 6)] with pc := 0x20 } 0x1C07440C (fun t => t.pc) = some 0x2C := by decide

theorem test_jne_not :
    after { start .srm32sm [(7, 5), (8, 5)] with pc := 0x20 } 0x1C07440C (fun t => t.pc) = some 0x24 := by decide

theorem test_jge :
    after { start .srm32sm [(7, 0xFFFFFFFF), (8, 1)] with pc := 0x20 } 0x1C07540C (fun t => t.pc) =
      some 0x2C := by decide

theorem test_jge_not :
    after { start .srm32sm [(7, 1), (8, 0xFFFFFFFF)] with pc := 0x20 } 0x1C07540C (fun t => t.pc) =
      some 0x24 := by decide

theorem test_jsge :
    after { start .srm32sm [(7, 5), (8, 5)] with pc := 0x20 } 0x1C07640C (fun t => t.pc) = some 0x2C := by decide

theorem test_jsge_not :
    after { start .srm32sm [(7, 0x80000000), (8, 0x7FFFFFFF)] with pc := 0x20 } 0x1C07640C (fun t => t.pc) =
      some 0x24 := by decide

theorem test_syscall :
    after { user (start .srm32sm []) with scvaddr := 0x400 } 0x20000000 (fun t => (t.iraddr, t.spvg, t.pvg, t.pc)) =
      some (0x104, 0, 2, 0x400) := by decide

theorem test_sysret :
    after { start .srm32sm [] with iraddr := 0x104 } 0x24000000 (fun t => (t.pc, t.pvg, t.spvg)) =
      some (0x104, 0, 0) := by decide

theorem test_sysret_user : fault? (run (user (start .srm32sm [])) 0x24000000) = some .sysretInUserMode := by decide

theorem test_csrw :
    after (start .srm32sm [(7, 0x400)]) 0x28070005 (fun t => (t.scvaddr, t.pc)) = some (0x400, 0x104) := by decide

theorem test_csrw_reserved_bit :
    fault? (run (start .srm32sm [(7, 2)]) 0x28070000) = some .reservedCsrValue := by decide

theorem test_csrr :
    after { start .srm32sm [] with iraddr := 0x104 } 0x28E01006 (fun t => t.reg 7) = some 0x104 := by decide

theorem test_csrr_user :
    after { user (start .srm32sm [(7, 0xDEADBEEF)]) with iraddr := 0x104 } 0x28E01006 (fun t => t.reg 7) =
      some 0 := by decide

theorem test_mul :
    after (start .srm32sm [(8, 0xFFFFFFFF), (9, 0xFFFFFFFF)]) 0x2CE80480 (fun t => (t.reg 7, t.pc)) =
      some (1, 0x104) := by decide

theorem test_smul :
    after (start .srm32sm [(8, 0xFFFFFFFE), (9, 3)]) 0x2CE81480 (fun t => (t.reg 7, t.pc)) =
      some (0xFFFFFFFA, 0x104) := by decide

theorem test_mulh :
    after (start .srm32sm [(8, 0xFFFFFFFE), (9, 3)]) 0x2CE82480 (fun t => (t.reg 7, t.pc)) =
      some (2, 0x104) := by decide

theorem test_smulh :
    after (start .srm32sm [(8, 0xFFFFFFFE), (9, 3)]) 0x2CE83480 (fun t => (t.reg 7, t.pc)) =
      some (0xFFFFFFFF, 0x104) := by decide

theorem test_smulh_wide :
    after (quad (start .srm64sm [(8, 0xFFFFFFFFFFFFFFFF), (9, 0xFFFFFFFFFFFFFFFF)])) 0x2CE83480 (fun t => t.reg 7) =
      some 0 := by decide

theorem test_div :
    after (start .srm32sm [(8, 0xFFFFFFF9), (9, 2)]) 0x2CE84480 (fun t => (t.reg 7, t.pc)) =
      some (0x7FFFFFFC, 0x104) := by decide

theorem test_sdiv :
    after (start .srm32sm [(8, 0xFFFFFFF9), (9, 2)]) 0x2CE85480 (fun t => (t.reg 7, t.pc)) =
      some (0xFFFFFFFD, 0x104) := by decide

theorem test_mod :
    after (start .srm32sm [(8, 0xFFFFFFF9), (9, 2)]) 0x2CE86480 (fun t => (t.reg 7, t.pc)) =
      some (1, 0x104) := by decide

theorem test_smod :
    after (start .srm32sm [(8, 0xFFFFFFF9), (9, 2)]) 0x2CE87480 (fun t => (t.reg 7, t.pc)) =
      some (0xFFFFFFFF, 0x104) := by decide

/-- 48_muldiv.md R319 (c). -/
theorem test_sdiv_by_zero :
    ((next? (run (start { Config.srm32sm with divZero := .onesAndDividend } [(8, 0xFFFFFFF9)]) 0x2CE85480)).map fun t =>
      t.reg 7) = some 0xFFFFFFFF := by decide

/-- 48_muldiv.md R319 (d). -/
theorem test_smod_overflow :
    ((next? (run (start { Config.srm32sm with divOverflow := .wrap } [(8, 0x80000000), (9, 0xFFFFFFFF)]) 0x2CE87480)).map
      fun t => t.reg 7) = some 0 := by decide

/-! ## The operating width, faults, traps -/

/-- 46_srm64.md R272: only the low half is known. -/
theorem test_narrow_low_half :
    after (start .srm64sm [(8, 0x00000000FFFFFFFF)]) 0x04E80001 (fun t => t.regLo 7) = some 0 := by decide

theorem test_narrow_candidates :
    ([Q0Upper.sext, .zext, .keep].map fun q => (next? (run (start { Config.srm64sm with q0Upper := q }
      [(7, 0x1111111122222222), (8, 0x80000000)]) 0x04E80000)).map fun t => t.reg 7) =
    [some 0xFFFFFFFF80000000, some 0x80000000, some 0x1111111180000000] := by decide

theorem test_q_takes_effect_next :
    after (start .srm64sm [(7, 2)]) 0x28070000 (fun t => (t.msr, t.opWidth)) = some (2, 64) := by decide

theorem test_misaligned_fetch :
    fault? (run { start .srm32sm [] with pc := 0x102 } 0) = some .misalignedFetch := by decide

theorem test_store_absent :
    fault? (run (start { Config.srm32sm with memMap := [⟨0, 0x4000, .ram⟩] } [(8, 0x5000)]) 0x0C082380) =
    some .unmappedAccess := by decide

theorem test_store_rom :
    fault? (run (start { Config.srm32sm with memMap := [⟨0x1000, 16, .rom⟩, ⟨0, 0x4000, .ram⟩] } [(8, 0x1000)])
      0x0C082380) = some .unmappedAccess := by decide

theorem test_reserved_word : fault? (run (start .srm32sm []) 0x0C003000) = some .reservedEncoding := by decide

/-- The state of 60_exceptions.md R354 (b), (c): an external request with cause 7 is pending. -/
def pending (e : IraddrExt) : State :=
  { user (start { Config.srm32sm with iraddrExt := e } []) with pc := 0x200, msr := 1, eivba := 0x800, irq := some 7 }

/-- 60_exceptions.md R354 (b). -/
theorem test_external_interrupt :
    ((next? (run (pending .completedPlus4) 0x04E70001)).map fun t =>
      ((t.eic, t.iraddr, t.spvg, t.pvg), (t.pc, t.msr, t.irq))) = some ((7, 0x204, 0, 2), (0x800, 1, none)) := by decide

/-- 60_exceptions.md R354 (c). -/
theorem test_external_after_jump :
    ([IraddrExt.completedPlus4, .nextPc, .nextPcPlus4].map fun e =>
      (next? (run (pending e) 0x14000040)).map fun t => t.iraddr) = [some 0x204, some 0x240, some 0x244] := by decide

/-- 60_exceptions.md R350. -/
theorem test_countdown :
    after { start { Config.srm32sm with pcsTimer := .countdown } [] with msr := 1, pcstrv := 9, pcsaddr := 0x900 } 0
      (fun t => (t.pcst, t.pc, t.spvg)) = some (9, 0x900, 2) := by decide

/-- 20_memory.md R67. -/
theorem test_device_store :
    ((next? (run (start { Config.srm32sm with memMap := [⟨0x1000, 16, .device 3⟩, ⟨0, 0x4000, .ram⟩] }
      [(7, 0xAABBCCDD), (8, 0x1000)]) 0x0C081380)).map fun t => (t.events, data t)) =
    some ([⟨true, 0x1000, 2, [⟨3, 0x1000, 0xCC⟩, ⟨3, 0x1001, 0xDD⟩]⟩], []) := by decide

/-- 60_exceptions.md R363 (6). -/
theorem test_environment :
    ((next? (run { start .srm32sm [] with inputs := [⟨none, false, .raise 5, [(0x1000, 0x42)]⟩] } 0)).map fun t =>
      (t.irq, t.mem.read 0x1000, t.inputs)) = some (some 5, 0x42, []) := by decide

/-! ## The assembler -/

theorem test_asm_store : asm (.std 5 7 (-4)) = "std a0, [sp, -4]" := by decide

theorem test_asm_csr : asm (.csrw 7 5) = "csrw a0, scvaddr" := by decide

/-- 44_pseudo_macro.md R231. -/
theorem test_ldi :
    (Macro.expand (.ldi 7 (-100000))).map (List.map (encode .imm12)) = some [0x08FFFFCF, 0x04E70160] := by decide

/-- 44_pseudo_macro.md R232. -/
theorem test_push :
    (Macro.expand (.push [7, 8])).map (List.map (encode .imm12)) = some [0x0FE523FC, 0x0FE52478, 0x04A50FF8] := by decide

theorem test_pop :
    (Macro.expand (.pop [8, 7])).map (List.map (encode .imm12)) = some [0x11052000, 0x10E52004, 0x04A50008] := by decide

/-- 44_pseudo_macro.md R239. -/
theorem test_bst :
    (Macro.expand (.bst 7 31)).map (List.map (encode .imm12)) = some [0x08300000, 0x00E73080] := by decide

/-- 48_muldiv.md R322: one expansion, with `mul`, for both. -/
theorem test_maddi_smaddi :
    ([Macro.maddi 7 8 10, .smaddi 7 8 10].map fun m => m.expand.map (List.map (encode .imm12))) =
      [some [0x0420000A, 0x2C280080, 0x00E70080], some [0x0420000A, 0x2C280080, 0x00E70080]] := by decide

/-- 44_pseudo_macro.md R213. -/
theorem test_jle : encode .imm12 (Pseudo.expand (.jle 7 8 12)) = 0x1C08538C := by decide

/-! ## Witnesses: a state and operands that meet the hypotheses of each statement that has some -/

/-- SRM32SM with 16 bytes of a device at 0x1000, 16 of rom at 0x2000, ram up to 0x4002, nothing above. -/
def platform : Config :=
  { Config.srm32sm with memMap := [⟨0x1000, 16, .device 3⟩, ⟨0x2000, 16, .rom⟩, ⟨0, 0x4002, .ram⟩] }

/-- The same platform on SRM64. -/
def platform64 : Config := { platform with xlen := .x64 }

theorem witness_EncodeDecodeRoundTrip :
    Instr.wellFormed (.add 15 15 15) reduced = true ∧ Instr.wellFormed (.csrw 31 4095) .srm64sm = true ∧
      Instr.wellFormed (.csrr 31 31) rs2Csr = true := by decide

theorem witness_DecodeEncodeRoundTrip :
    decode reduced 0x01EF0780 = .ok (.add 15 15 15) ∧ decode .srm64sm 0x2BE01FFF = .ok (.csrr 31 4095) ∧
      decode rs2Csr 0x28070280 = .ok (.csrw 7 5) := by decide

theorem witness_DecoderAgreesWithOpcodeTable :
    reduced.csrField = .imm12 ∧ decode reduced 0x01EF0780 = .ok (.add 15 15 15) ∧
      ∃ r ∈ opcodeTable, r.holds reduced 0x01EF0780 :=
  ⟨rfl, by decide, ⟨"ADD", 0xFC00F07F, 0x00000000, .base, true, true, true⟩, by decide, by
    unfold TableRow.holds; decide⟩

theorem witness_ExpansionsAreWellFormed :
    (∀ r ∈ (Pseudo.jle 15 0 (-1)).regs, r.toNat < reduced.nregs) ∧
      (Macro.maddi 15 1 10).expand.isSome = true ∧ (∀ r ∈ (Macro.maddi 15 1 10).regs, r.toNat < reduced.nregs) ∧
      (Macro.maddi 15 1 10).usesM = true ∧ reduced.extM = true ∧
      (Macro.ldi 15 0).expand = some [.xor 15 15 15] ∧ (∀ r ∈ (Macro.ldi 15 0).regs, r.toNat < bare.nregs) ∧
      (Macro.ldi 15 0).usesM = false := by decide

/-- A state whose next instruction is a word, at the last address that has four bytes of memory. -/
def atWord (w : Nat) : State := { start platform [] with pc := 0x3FFC }.withFetchWord 32 w

theorem witness_StepRunsDecodedInstruction :
    (atWord 0x00E80480).cfg.valid = true ∧ (atWord 0x00E80480).pc.extractLsb' 0 2 = 0 ∧
      (atWord 0x00E80480).plainMemory (atWord 0x00E80480).ip.toNat 4 ∧
      decode (atWord 0x00E80480).cfg ((atWord 0x00E80480).mem.read 0x3FFC ++ (atWord 0x00E80480).mem.read 0x3FFD ++
        (atWord 0x00E80480).mem.read 0x3FFE ++ (atWord 0x00E80480).mem.read 0x3FFF) = .ok (.add 7 8 9) := by
  unfold State.plainMemory
  decide

theorem witness_MisalignedFetchFaults :
    (start .srm32sm []).cfg.valid = true ∧ { start .srm32sm [] with pc := 3 }.pc.extractLsb' 0 2 ≠ 0 := by decide

theorem witness_UnmappedFetchFaults :
    (start platform []).cfg.valid = true ∧ { start platform [] with pc := 0x4000 }.pc.extractLsb' 0 2 = 0 ∧
      { start platform [] with pc := 0x4000 }.kindAt
        ({ start platform [] with pc := 0x4000 }.ip.toNat + 2) = .absent ∧
      { start platform [] with pc := 0x1000 }.kindAt
        ({ start platform [] with pc := 0x1000 }.ip.toNat + 3) = .device 3 := by decide

theorem witness_ReservedEncodingFaults :
    (atWord 0x00000001).cfg.valid = true ∧ (atWord 0x00000001).pc.extractLsb' 0 2 = 0 ∧
      (atWord 0x00000001).plainMemory (atWord 0x00000001).ip.toNat 4 ∧
      decode (atWord 0x00000001).cfg ((atWord 0x00000001).mem.read 0x3FFC ++ (atWord 0x00000001).mem.read 0x3FFD ++
        (atWord 0x00000001).mem.read 0x3FFE ++ (atWord 0x00000001).mem.read 0x3FFF) = .error .nonzeroFn7 := by
  unfold State.plainMemory
  decide

theorem witness_OperatingWidthFollowsQ :
    (start .srm32sm []).cfg.xlen = .x32 ∧ (start .srm64sm []).cfg.xlen = .x64 ∧
      (start .srm64sm []).msr.toNat / 2 % 2 = 0 ∧ (quad (start .srm64sm [])).msr.toNat / 2 % 2 = 1 ∧
      (start { Config.srm64sm with extS := false } []).cfg.extS = false ∧
      (next? (exec .sysret (start .srm64sm []))).isSome = true := by decide

theorem witness_ShiftsBelowTheWidth :
    (start .srm32sm [(9, 31)]).u 9 < (start .srm32sm [(9, 31)]).opWidth ∧
      (quad (start .srm64sm [(9, 63)])).u 9 < (quad (start .srm64sm [(9, 63)])).opWidth := by decide

theorem witness_OverWidthShiftsAreAFunctionOfTheirOperands :
    (start .srm32sm [(9, 32)]).cfg.shiftOver = .any ∧
      (start .srm32sm [(9, 32)]).opWidth ≤ (start .srm32sm [(9, 32)]).u 9 ∧
      (start .srm32sm []).opWidth ≤ (start .srm32sm []).immU (32 : Imm12) ∧
      (quad (start .srm64sm [])).opWidth ≤ (quad (start .srm64sm [])).immU (-1 : Imm12) := by decide

theorem witness_ShiftOverCandidates :
    [ShiftOver.full, .masked].all (fun o =>
      let s := start { Config.srm32sm with shiftOver := o } [(9, 32)]
      let t := quad (start { Config.srm64sm with shiftOver := o } [(9, 0xFFFFFFFFFFFFFFFF)])
      decide (s.cfg.shiftOver = o) && decide (s.opWidth ≤ s.u 9) && decide (s.opWidth ≤ s.immU (32 : Imm12)) &&
        decide (t.cfg.shiftOver = o) && decide (t.opWidth ≤ t.u 9) && decide (t.opWidth ≤ t.immU (-1 : Imm12))) =
      true := by decide

theorem witness_ImmediateShiftsBelowTheWidth :
    (start .srm32sm []).immU (31 : Imm12) < (start .srm32sm []).opWidth ∧
      (quad (start .srm64sm [])).immU (63 : Imm12) < (quad (start .srm64sm [])).opWidth := by decide

theorem witness_NarrowResultUpperHalf :
    [Q0Upper.sext, .zext, .keep].all (fun q =>
      (start { Config.srm64sm with q0Upper := q } []).narrow &&
        decide ((start { Config.srm64sm with q0Upper := q } []).cfg.q0Upper = q)) = true ∧
      (31 : RegNum) ≠ 0 := by decide

theorem witness_MulAndSmulAgree :
    (start .srm32sm []).narrow = false ∧ (quad (start .srm64sm [])).narrow = false ∧
      (start { Config.srm64sm with q0Upper := .keep } []).narrow = true ∧
      (start { Config.srm64sm with q0Upper := .keep } []).cfg.q0Upper ≠ .any := by decide

theorem witness_UnsignedDivisionResults : (start .srm32sm [(9, 1)]).u 9 ≠ 0 := by decide

theorem witness_SignedDivisionResults :
    (start .srm32sm [(8, 0x80000001), (9, 0xFFFFFFFF)]).u 9 ≠ 0 ∧
      ¬((start .srm32sm [(8, 0x80000001), (9, 0xFFFFFFFF)]).u 8 =
          2 ^ ((start .srm32sm [(8, 0x80000001), (9, 0xFFFFFFFF)]).opWidth - 1) ∧
        (start .srm32sm [(8, 0x80000001), (9, 0xFFFFFFFF)]).u 9 =
          2 ^ (start .srm32sm [(8, 0x80000001), (9, 0xFFFFFFFF)]).opWidth - 1) := by decide

theorem witness_DivisionByZeroCompletes :
    [DivZero.any, .onesAndDividend, .zero].all (fun z =>
      decide ((start { Config.srm32sm with divZero := z } [(8, 5)]).u 9 = 0) &&
        decide ((start { Config.srm32sm with divZero := z } [(8, 5)]).cfg.divZero = z)) = true := by decide

theorem witness_SignedDivisionOverflowCompletes :
    [DivOverflow.any, .wrap].all (fun o =>
      let s := start { Config.srm32sm with divOverflow := o } [(8, 0x80000000), (9, 0xFFFFFFFF)]
      decide (s.u 8 = 2 ^ (s.opWidth - 1)) && decide (s.u 9 = 2 ^ s.opWidth - 1) &&
        decide (s.cfg.divOverflow = o)) = true := by decide

theorem witness_LoadResults :
    (start .srm32sm [(8, 0xFFFFFFFF)]).plainMemory ((start .srm32sm [(8, 0xFFFFFFFF)]).eaNat 8 0 1) 1 ∧
      (start .srm32sm [(8, 0xFFFFFFFF)]).plainMemory ((start .srm32sm [(8, 0xFFFFFFFF)]).eaNat 8 0 2) 2 ∧
      (start platform [(8, 0x200F)]).plainMemory ((start platform [(8, 0x200F)]).eaNat 8 0 4) 4 ∧
      (start platform64 [(8, 0x200F)]).plainMemory ((start platform64 [(8, 0x200F)]).eaNat 8 0 8) 8 := by
  unfold State.plainMemory
  decide

theorem witness_LoadOfAbsentByteFaults :
    Instr.isLoad (.ldd 7 8 0) = true ∧ Instr.access (.ldd 7 8 0) = some (8, 0, 4) ∧
      (start platform [(8, 0x4002)]).kindAt ((start platform [(8, 0x4002)]).accessAddr 8 0 4 + 2) = .absent := by
  decide

/-- SRM32SM with a device in the upper two bytes of the dword of ram at 0x1000. -/
def mixed : Config := { Config.srm32sm with memMap := [⟨0x1002, 2, .device 3⟩, ⟨0, 0x4000, .ram⟩] }

theorem witness_DeviceLoadsAreEvents :
    Instr.loadDest (.ldd 0 8 0) = some 0 ∧ Instr.access (.ldd 0 8 0) = some (8, 0, 4) ∧
      (∀ k < 4, (start platform [(8, 0x100F)]).isDevice ((start platform [(8, 0x100F)]).accessAddr 8 0 4 + k) = true) ∧
      (∀ k < 4, (start mixed [(8, 0x1003)]).kindAt ((start mixed [(8, 0x1003)]).accessAddr 8 0 4 + k) ≠ .absent) ∧
      (∃ k < 4, (start mixed [(8, 0x1003)]).isDevice ((start mixed [(8, 0x1003)]).accessAddr 8 0 4 + k) = true) ∧
      ∃ k < 4, (start mixed [(8, 0x1003)]).isDevice ((start mixed [(8, 0x1003)]).accessAddr 8 0 4 + k) = false := by
  decide

theorem witness_StoreResults :
    (start .srm32sm [(8, 0xFFFFFFFF)]).ramOnly ((start .srm32sm [(8, 0xFFFFFFFF)]).accessAddr 8 0 1) 1 ∧
      (start .srm32sm [(8, 0xFFFFFFFF)]).ramOnly ((start .srm32sm [(8, 0xFFFFFFFF)]).accessAddr 8 0 2) 2 ∧
      (start platform [(8, 0x3FFF)]).ramOnly ((start platform [(8, 0x3FFF)]).accessAddr 8 0 4) 4 ∧
      (start platform64 [(8, 0x3FFF)]).ramOnly ((start platform64 [(8, 0x3FFF)]).accessAddr 8 0 8) 8 := by
  unfold State.ramOnly
  decide

theorem witness_StoreToAbsentOrRomFaults :
    Instr.isStore (.stq 8 7 0) = true ∧ Instr.access (.stq 8 7 0) = some (8, 0, 8) ∧
      (start platform64 [(8, 0x4000)]).kindAt ((start platform64 [(8, 0x4000)]).accessAddr 8 0 8 + 7) = .absent ∧
      (start platform64 [(8, 0x200F)]).kindAt ((start platform64 [(8, 0x200F)]).accessAddr 8 0 8 + 7) = .rom := by
  decide

theorem witness_DeviceStoresAreEvents :
    Instr.storeSource (.std 8 7 0) = some 7 ∧ Instr.access (.std 8 7 0) = some (8, 0, 4) ∧
      (∀ k < 4, (start platform [(8, 0x100F)]).isDevice ((start platform [(8, 0x100F)]).accessAddr 8 0 4 + k) = true) ∧
      (∀ k < 4, (start mixed [(8, 0x1003)]).kindAt ((start mixed [(8, 0x1003)]).accessAddr 8 0 4 + k) = .ram ∨
        (start mixed [(8, 0x1003)]).isDevice ((start mixed [(8, 0x1003)]).accessAddr 8 0 4 + k) = true) ∧
      (∃ k < 4, (start mixed [(8, 0x1003)]).isDevice ((start mixed [(8, 0x1003)]).accessAddr 8 0 4 + k) = true) ∧
      ∃ k < 4, (start mixed [(8, 0x1003)]).kindAt ((start mixed [(8, 0x1003)]).accessAddr 8 0 4 + k) = .ram := by
  decide

theorem witness_MixedWidthAccess :
    (start platform [(7, 0x11223344), (8, 0x3FFF)]).ramOnly
        ((start platform [(7, 0x11223344), (8, 0x3FFF)]).accessAddr 8 0 4) 4 ∧
      (next? (exec (.std 8 7 0) (start platform [(7, 0x11223344), (8, 0x3FFF)]))).isSome = true := by
  unfold State.ramOnly
  decide

theorem witness_OnlyStoresChangeMemory :
    Instr.isStore (.ldd 7 8 0) = false ∧ (next? (exec (.ldd 7 8 0) (start .srm32sm []))).isSome = true := by decide

theorem witness_SysretReturns :
    2 ≤ (start .srm32sm []).pvg.toNat ∧ (start .srm32sm []).spvg = 0 ∧
      { start .srm32sm [] with spvg := 2 }.spvg = 2 := by decide

theorem witness_SysretStops :
    (user (start .srm32sm [])).pvg.toNat < 2 ∧ 2 ≤ { start .srm32sm [] with spvg := 1 }.pvg.toNat ∧
      { start .srm32sm [] with spvg := 1 }.spvg ≠ 0 ∧ { start .srm32sm [] with spvg := 1 }.spvg ≠ 2 := by decide

theorem witness_CsrwWritesInKernelMode :
    2 ≤ (start .srm32sm [(7, 1)]).pvg.toNat ∧ (start .srm32sm [(7, 1)]).cfg.xlen = .x32 ∧
      (start .srm32sm [(7, 1)]).u 7 < 2 ∧ (start .srm64sm [(7, 3)]).cfg.xlen = .x64 ∧
      (start .srm64sm [(7, 3)]).u 7 < 4 ∧ (start .srm32sm [(7, 2)]).u 7 = 2 ∧ (9 : CsrNum).toNat < 10 := by decide

theorem witness_CsrwInUserModeDoesNothing : (user (start .srm32sm [])).pvg.toNat < 2 := by decide

theorem witness_CsrwStops :
    2 ≤ (start .srm32sm [(7, 2)]).pvg.toNat ∧ (start .srm32sm [(7, 2)]).cfg.xlen = .x32 ∧
      2 ≤ (start .srm32sm [(7, 2)]).u 7 ∧ (start .srm64sm [(7, 4)]).cfg.xlen = .x64 ∧
      4 ≤ (start .srm64sm [(7, 4)]).u 7 ∧ (start .srm32sm [(7, 1)]).u 7 ≠ 0 ∧ (start .srm32sm [(7, 1)]).u 7 ≠ 2 := by
  decide

theorem witness_CsrrReads :
    2 ≤ (start .srm32sm []).pvg.toNat ∧ (start .srm32sm []).csr (10 : CsrNum).toNat = some 0 ∧
      (user (start .srm32sm [])).pvg.toNat < 2 := by decide

theorem witness_ReservedCsrNumbers :
    (10 : CsrNum).toNat ≤ 10 ∧ 11 ≤ (11 : CsrNum).toNat ∧ 11 ≤ (4095 : CsrNum).toNat ∧
      2 ≤ (start .srm32sm []).pvg.toNat ∧ (user (start .srm32sm [])).pvg.toNat < 2 := by decide

theorem witness_UserModeCannotChangeCsrs :
    (user (start .srm32sm [])).pvg.toNat < 2 ∧ Instr.csrw 7 0 ≠ .syscall ∧
      (next? (exec (.csrw 7 0) (user (start .srm32sm [(7, 1)])))).isSome = true := by decide

theorem witness_UserModeIsLeftThroughTheVector :
    (user (start .srm32sm [])).pvg.toNat < 2 ∧
      ((next? (exec .syscall (user (start .srm32sm [])))).map fun t => decide (2 ≤ t.pvg.toNat)) = some true ∧
      (pending .nextPc).pvg.toNat < 2 ∧
      ((next? (run (pending .nextPc) 0x04E70001)).map fun t => decide (2 ≤ t.pvg.toNat)) = some true := by decide

theorem witness_UserModeCannotReadKernelCsrs :
    (user (start .srm32sm [])).pvg.toNat < 2 ∧ Instr.csrr 7 6 ≠ .syscall ∧
      (next? (exec (.csrr 7 6) (user (start .srm32sm [])))).isSome = true ∧
      fault? (exec .sysret (user (start .srm32sm []))) = some .sysretInUserMode := by decide

theorem witness_FaultsOnlyWhereTheRulesSay :
    fault? (exec (.ldd 7 8 0) (start platform [(8, 0x5000)])) = some .unmappedAccess ∧
      fault? (exec (.csrw 7 10) (start platform [])) = some .htidWrite ∧
      fault? (exec (.csrr 7 11) (start platform [])) = some .reservedCsr ∧
      fault? (exec .sysret { start platform [] with spvg := 3 }) = some .reservedCsrValue := by decide

/-- A state with the timer in its instantiation `countdown`. -/
def counting (msr pcst : Word64) (due : Bool) (irq : Option Word64) : State :=
  { start { Config.srm32sm with pcsTimer := .countdown } [] with
    msr := msr
    pcst := pcst
    timerDue := due
    irq := irq }

/-- A state with the timer in its instantiation `platform`. -/
def platformTimer (msr : Word64) (due : Bool) (irq : Option Word64) : State :=
  { start { Config.srm32sm with pcsTimer := .platform } [] with
    msr := msr
    timerDue := due
    irq := irq }

/-- An input in which the platform's timer sets `pcst` and requests its trap. -/
def ring : EnvInput := ⟨some 5, true, .keep, []⟩

theorem witness_ExternalInterruptIsTaken :
    [pending .completedPlus4, pending .nextPc, pending .nextPcPlus4, counting 1 0 false (some 7),
      platformTimer 1 false (some 7)].all
      (fun s => s.cfg.extS && decide (s.msr.toNat % 2 = 1) && decide (s.irq = some 7)) = true := by decide

theorem witness_QuietBoundaryChangesNothing :
    (start bare []).cfg.extS = false ∧ (start .srm32sm []).cfg.pcsTimer = .absent ∧
      { start .srm32sm [] with irq := some 7 }.msr.toNat % 2 = 0 ∧ (start .srm32sm []).irq = none := by decide

theorem witness_ContextSwitchTimer :
    [counting 1 0 false none, counting 0 0 false (some 7), counting 1 5 true none, counting 1 5 false none].all
      (fun s => s.cfg.extS && decide (s.cfg.pcsTimer = .countdown) &&
        decide (s.msr.toNat % 2 = 0 ∨ s.irq = none)) = true ∧
      [platformTimer 0 true (some 7), platformTimer 1 false none].all
        (fun s => s.cfg.extS && decide (s.cfg.pcsTimer = .platform) &&
          decide (s.msr.toNat % 2 = 0 ∨ s.irq = none)) = true ∧
      (counting 1 0 false none).pcst.toNat = 0 ∧ (counting 1 5 true none).pcst.toNat ≠ 0 ∧
      (counting 1 5 true none).msr.toNat % 2 = 1 ∧ (counting 1 5 true none).timerDue = true ∧
      (counting 1 5 false none).timerDue = false ∧ (counting 0 0 false (some 7)).msr.toNat % 2 = 0 ∧
      (platformTimer 0 true (some 7)).timerDue = true ∧ (platformTimer 1 false none).timerDue = false ∧
      ring.timer = some 5 ∧ ring.timerRequest = true ∧ EnvInput.quiet.timer = none ∧
      EnvInput.quiet.timerRequest = false := by decide

theorem witness_ExternalInterruptBeforeTimer :
    [counting 1 5 true (some 7), counting 1 0 false (some 7), platformTimer 1 false (some 7)].all
      (fun s => s.cfg.extS && decide (s.cfg.pcsTimer ≠ .absent) && decide (s.msr.toNat % 2 = 1) &&
        decide (s.irq = some 7) && s.timerDueNow ring) = true := by decide

theorem witness_EnvironmentPartOfAStep :
    { start .srm32sm [] with inputs := [⟨none, false, .raise 5, [(0x1000, 0x42)]⟩] }.inputs =
        ⟨none, false, .raise 5, [(0x1000, 0x42)]⟩ :: [] ∧
      (start platform []).kindAt 0x100F ≠ .ram ∧ ∀ c ∈ ([(0x1000, 0x42)] : List Host.Cell), c.1 ≠ 0x1001 := by decide

theorem witness_StepKeepsMemoryCanonical :
    (atWord 0x00E80480).mem.wf ∧ (next? (step (atWord 0x00E80480))).isSome = true := by
  unfold Memory.wf
  decide

/-- The state after reset in SRM64SM meets the invariant, and its step, with nothing placed, is a NOP. -/
theorem witness_StepKeepsTheInvariant : State.reset.inv ∧ (next? (step State.reset)).isSome = true := by
  refine ⟨⟨Memory.wf_nil, .inr rfl, by unfold State.msrReservedZero; decide, fun h => absurd h (by decide), rfl⟩, ?_⟩
  decide

theorem witness_RemovedRegistersNeverChange :
    (start reduced []).cfg.extH = true ∧ (next? (run (start reduced [(8, 1), (9, 2)]) 0x00E80480)).isSome = true ∧
      16 ≤ (16 : RegNum).toNat := by decide

/-- SRM32SM and SRM64SM with Q = 0 correspond in states that have the same `pc`, nothing else set, and one input. -/
theorem start_sim (x : Word64) (e : EnvInput) (ht : e.timer = none) (hi : e.irq = .keep) :
    Srm32Sim { start .srm32sm [] with pc := x, inputs := [e] } { start .srm64sm [] with pc := x, inputs := [e] } := by
  have hq : (start .srm64sm []).q = false := by decide
  refine ⟨rfl, rfl, hq, rfl, fun y d h => ?_, fun r => rfl, rfl, ?_, fun a => rfl, rfl, rfl, rfl, rfl, ?_, ?_⟩
  · change memKindAt Config.allRam y = .device d at h
    unfold Config.allRam memKindAt at h
    split at h <;> cases h
  · unfold SameCsrs
    exact ⟨rfl, rfl, rfl, rfl, rfl, rfl, rfl, rfl, rfl, rfl, rfl⟩
  · intro c h
    cases h
  · intro f hf
    obtain rfl := List.mem_singleton.mp hf
    exact ⟨fun v h => (by rw [ht] at h; cases h), fun c h => (by rw [hi] at h; cases h)⟩

theorem witness_Srm64RunsSrm32Code :
    Srm32Sim { start .srm32sm [] with pc := 0x100, inputs := [EnvInput.quiet] }
        { start .srm64sm [] with pc := 0x100, inputs := [EnvInput.quiet] } ∧
      Instr.needs (.add 7 8 9) ≠ .srm64 ∧
      (next? (exec (.add 7 8 9) { start .srm32sm [] with pc := 0x100, inputs := [EnvInput.quiet] })).isSome = true ∧
      (next? (step { start .srm32sm [] with pc := 0x100, inputs := [EnvInput.quiet] })).isSome = true ∧
      Srm32Sim { start .srm32sm [] with pc := 0x102, inputs := [EnvInput.quiet] }
        { start .srm64sm [] with pc := 0x102, inputs := [EnvInput.quiet] } ∧
      fault? (step { start .srm32sm [] with pc := 0x102, inputs := [EnvInput.quiet] }) = some .misalignedFetch :=
  ⟨start_sim _ _ rfl rfl, by decide, by decide, by decide, start_sim _ _ rfl rfl, by decide⟩

end Sys2Proof.Tests
end

section
/-! # The family of the state: reset, the CSR numbers, and what every step keeps (10_state.md)

The invariant `State.inv` is proved part by part. For each part there is a lemma for an instruction that completes, by
the cases of `ExecEffect`, and a lemma for the boundary and the environment, `finishStep`; `step_next` puts the two
together. -/

namespace Sys2Proof.Machine

/-! ## Values that fit the registers of a configuration -/

/-- On SRM32 the value has at most 32 bits (10_state.md R20, R32; log entry 18). -/
def Config.Holds (c : Config) (v : Word64) : Prop := c.xlen = .x32 → v.toNat < 2 ^ 32

theorem Config.holds_of_lt {c : Config} {v : Word64} (h : v.toNat < 2 ^ 32) : Config.Holds c v := fun _ => h

/-- What `fit` keeps of a value fits. -/
theorem Config.holds_fit (c : Config) (v : Word64) : Config.Holds c (c.fit v) := by
  intro hx
  rw [Config.fit_toNat, hx]
  exact Nat.mod_lt _ (Nat.two_pow_pos _)

/-- A value of the operating width fits, since the width is never above the register's. -/
theorem State.holds_setWidth (s : State) (v : BitVec s.opWidth) : Config.Holds s.cfg (v.setWidth 64) := by
  intro hx
  have hw : s.opWidth ≤ 32 := by simpa [hx, Xlen.bits] using s.opWidth_le_bits
  rw [State.toNat_setWidth64]
  exact lt_of_lt_of_le v.isLt (Nat.pow_le_pow_right (by decide) hw)

/-! ## `narrowStorage`: one lemma per operation -/

/-- `narrowStorage`, one stored value at a time. -/
theorem State.narrowStorage_iff (s : State) :
    s.narrowStorage ↔
      (∀ r, Config.Holds s.cfg (s.reg r)) ∧ Config.Holds s.cfg s.pc ∧
        ∀ n v, s.csr n = some v → Config.Holds s.cfg v := by
  constructor
  · intro h
    exact ⟨fun r hx => (h hx).1 r, fun hx => (h hx).2.1, fun n v hv hx => (h hx).2.2 n v hv⟩
  · rintro ⟨hreg, hpc, hcsr⟩ hx
    exact ⟨fun r => hreg r hx, hpc hx, fun n v hv => hcsr n v hv hx⟩

theorem State.narrowStorage_congr {s t : State} (h : s.narrowStorage) (hc : t.cfg = s.cfg)
    (hr : t.regs = s.regs) (hp : t.pc = s.pc) (hs : SameCsrs s t) : t.narrowStorage := by
  rw [State.narrowStorage_iff] at h ⊢
  obtain ⟨hreg, hpc, hcsr⟩ := h
  rw [hc, hp]
  refine ⟨fun r => ?_, hpc, fun n v hv => ?_⟩
  · rw [State.reg_congr hr]
    exact hreg r
  · rw [hs.csr n] at hv
    exact hcsr n v hv

theorem State.narrowStorage_setPc {s : State} {w : Nat} {t : BitVec w} (h : s.narrowStorage)
    (ht : Config.Holds s.cfg (t.setWidth 64)) : (s.setPc t).narrowStorage := by
  rw [State.narrowStorage_iff] at h ⊢
  obtain ⟨hreg, -, hcsr⟩ := h
  exact ⟨hreg, ht, hcsr⟩

theorem State.narrowStorage_setCsr {s : State} (n : Nat) {v : Word64} (h : s.narrowStorage)
    (hv : Config.Holds s.cfg v) : (s.setCsr n v).narrowStorage := by
  rw [State.narrowStorage_iff] at h ⊢
  obtain ⟨hreg, hpc, hcsr⟩ := h
  rw [State.setCsr_cfg, State.setCsr_pc]
  refine ⟨fun r => ?_, hpc, fun m u hu => ?_⟩
  · rw [State.reg_congr (s.setCsr_regs n v)]
    exact hreg r
  · rw [State.csr_setCsr] at hu
    split at hu
    · cases hu
      exact hv
    · exact hcsr m u hu

theorem State.narrowStorage_setReg {s : State} (rd : RegNum) (v : Word64) (h : s.narrowStorage) :
    (s.setReg rd v).narrowStorage := by
  rw [State.narrowStorage_iff] at h ⊢
  obtain ⟨hreg, hpc, hcsr⟩ := h
  have hsame : SameCsrs s (s.setReg rd v) := by simp [SameCsrs]
  rw [State.setReg_cfg, State.setReg_pc]
  refine ⟨fun r => ?_, hpc, fun n u hu => ?_⟩
  · rw [State.reg_setReg]
    split
    · exact Config.holds_fit _ _
    · exact hreg r
  · rw [hsame.csr n] at hu
    exact hcsr n u hu

/-- An SRM32 hart is never narrow: its results have the width of its registers. -/
theorem State.narrow_of_x32 {s : State} (hx : s.cfg.xlen = .x32) : s.narrow = false := by
  simp [State.narrow, hx]

theorem State.narrowStorage_writeW {s : State} (i : Instr) (rd : RegNum) (v : BitVec s.opWidth)
    (h : s.narrowStorage) : (s.writeW i rd v).narrowStorage := by
  intro hx
  rw [State.writeW_cfg] at hx
  have hw : s.writeW i rd v = s.setReg rd (v.setWidth 64) := by
    simp [State.writeW, State.narrow_of_x32 hx]
  rw [hw]
  exact State.narrowStorage_setReg rd _ h (by rwa [State.setReg_cfg])

theorem State.narrowStorage_noteAccess {s : State} (b : Bool) (addr n : Nat) (cells : List Host.Cell)
    (h : s.narrowStorage) : (s.noteAccess b addr n cells).narrowStorage :=
  State.narrowStorage_congr h (by simp) (by simp) (by simp) (by simp [SameCsrs])

theorem State.narrowStorage_writeCells {s : State} (cells : List Host.Cell) (h : s.narrowStorage) :
    (s.writeCells cells).narrowStorage :=
  State.narrowStorage_congr h rfl rfl rfl (by simp [SameCsrs])

/-! ## The trap entry, the return and the timer are writes of CSRs and `pc` -/

theorem State.takeTrap_eq_setCsr (s : State) (c : TrapCause) (ret : BitVec s.opWidth) :
    s.takeTrap c ret =
      (((s.setCsr 6 (ret.setWidth 64)).setCsr 2 s.pvg).setCsr 1 2).setPc ((s.vector c).setWidth s.opWidth) := rfl

theorem State.trapReturn_eq_setCsr (s : State) :
    s.trapReturn = (s.setCsr 1 s.spvg).setPc (s.iraddr.setWidth s.opWidth) := rfl

theorem State.narrowStorage_takeTrap {s : State} (c : TrapCause) (ret : BitVec s.opWidth) (h : s.narrowStorage) :
    (s.takeTrap c ret).narrowStorage := by
  obtain ⟨-, -, hcsr⟩ := s.narrowStorage_iff.mp h
  rw [State.takeTrap_eq_setCsr]
  apply State.narrowStorage_setPc
  · apply State.narrowStorage_setCsr 1 _ (Config.holds_of_lt (by decide))
    exact State.narrowStorage_setCsr 2 (State.narrowStorage_setCsr 6 h (s.holds_setWidth ret)) (hcsr 1 _ rfl)
  · exact s.holds_setWidth _

theorem State.narrowStorage_trapReturn {s : State} (h : s.narrowStorage) : s.trapReturn.narrowStorage := by
  obtain ⟨-, -, hcsr⟩ := s.narrowStorage_iff.mp h
  rw [State.trapReturn_eq_setCsr]
  exact State.narrowStorage_setPc (State.narrowStorage_setCsr 1 h (hcsr 2 _ rfl)) (s.holds_setWidth _)

/-- The value the timer leaves in `pcst` is the old one, `pcstrv`, one less than a value other than 0, or cut to `XLEN`
bits. -/
theorem State.timerTick_pcst_holds {s : State} (i : EnvInput) (h : s.narrowStorage) :
    Config.Holds s.cfg (s.timerTick i).pcst := by
  obtain ⟨-, -, hcsr⟩ := s.narrowStorage_iff.mp h
  have hpcst : Config.Holds s.cfg s.pcst := hcsr 9 _ rfl
  intro hx
  rw [State.timerTick_pcst_toNat]
  unfold State.timerValue
  cases s.cfg.pcsTimer with
  | absent => exact hpcst hx
  | countdown =>
    dsimp only
    split
    · exact hcsr 8 _ rfl hx
    · exact lt_of_le_of_lt (Nat.sub_le _ _) (hpcst hx)
  | platform =>
    cases i.timer with
    | none => exact hpcst hx
    | some v =>
      dsimp only
      rw [hx]
      exact Nat.mod_lt _ (Nat.two_pow_pos _)

theorem State.narrowStorage_timerTick {s : State} (i : EnvInput) (h : s.narrowStorage) :
    (s.timerTick i).narrowStorage := by
  have hset := State.narrowStorage_setCsr 9 h (State.timerTick_pcst_holds i h)
  refine State.narrowStorage_congr hset ?_ ?_ ?_ ?_
  · simp
  · simp
  · simp
  · simp [SameCsrs, State.setCsr]

theorem State.narrowStorage_takeAsync {s : State} (a : Word64) (h : s.narrowStorage) :
    (s.takeAsync a).narrowStorage := by
  rcases s.takeAsync_cases a with ⟨cause, -, -, e⟩ | ⟨-, -, e⟩ | ⟨-, -, e⟩ <;> rw [e]
  · have htrap := State.narrowStorage_takeTrap .external (s.asyncRet a s.pc) h
    have hset := State.narrowStorage_setCsr 4 htrap (Config.holds_fit s.cfg cause)
    exact State.narrowStorage_congr hset rfl rfl rfl (SameCsrs.refl _)
  · have htrap := State.narrowStorage_takeTrap .contextSwitch (s.asyncRet a s.pc) h
    exact State.narrowStorage_congr htrap rfl rfl rfl (SameCsrs.refl _)
  · exact h

theorem State.narrowStorage_boundary {s : State} (a : Word64) (i : EnvInput) (h : s.narrowStorage) :
    (s.boundary a i).narrowStorage := by
  unfold State.boundary
  split
  · exact State.narrowStorage_takeAsync a (State.narrowStorage_timerTick i h)
  · exact h

theorem State.narrowStorage_finishStep {s : State} (a : Word64) (h : s.narrowStorage) :
    (s.finishStep a).narrowStorage :=
  State.narrowStorage_congr (State.narrowStorage_boundary a s.input h) (by simp) (by simp) (by simp)
    (by simp [SameCsrs])

/-- An instruction that completes keeps SRM32's values at 32 bits. -/
theorem exec_keeps_narrowStorage {i : Instr} {s t : State} (h : s.narrowStorage) (he : exec i s = .next t) :
    t.narrowStorage := by
  cases exec_effect he with
  | writes rd v pc _ =>
    exact State.narrowStorage_setPc (State.narrowStorage_writeW i rd v h)
      (by rw [State.writeW_cfg]; exact s.holds_setWidth pc)
  | jumps pc => exact State.narrowStorage_setPc h (s.holds_setWidth pc)
  | loads rd rs1 imm n v cells _ _ =>
    exact State.narrowStorage_setPc (State.narrowStorage_setReg rd v (State.narrowStorage_noteAccess _ _ _ _ h))
      (by rw [State.setReg_cfg, State.noteAccess_cfg]; exact s.holds_setWidth _)
  | stores rs1 rs2 imm n _ _ =>
    exact State.narrowStorage_setPc (State.narrowStorage_noteAccess _ _ _ _ (State.narrowStorage_writeCells _ h))
      (by rw [State.noteAccess_cfg]; exact s.holds_setWidth _)
  | systemCall _ => exact State.narrowStorage_takeTrap _ _ h
  | systemReturn _ _ _ => exact State.narrowStorage_trapReturn h
  | csrWrite rs1 n _ _ _ =>
    exact State.narrowStorage_setPc (State.narrowStorage_setCsr _ h (s.holds_setWidth _))
      (by rw [State.setCsr_cfg]; exact s.holds_setWidth _)

/-! ## What no instruction changes: the configuration and `htid` -/

theorem exec_cfg {i : Instr} {s t : State} (he : exec i s = .next t) : t.cfg = s.cfg := by
  cases exec_effect he <;> simp

theorem exec_htid {i : Instr} {s t : State} (he : exec i s = .next t) : t.htid = s.htid := by
  cases exec_effect he <;> simp

/-! ## The canonical form of memory -/

/-- Only a store writes memory, and it writes it byte by byte. -/
theorem exec_keeps_mem_wf {i : Instr} {s t : State} (h : s.mem.wf) (he : exec i s = .next t) : t.mem.wf := by
  cases exec_effect he with
  | stores rs1 rs2 imm n _ _ =>
    rw [State.setPc_mem, State.noteAccess_mem]
    exact s.writeCells_wf _ h
  | writes | jumps | loads | systemCall | systemReturn | csrWrite => simpa using h

theorem State.finishStep_keeps_mem_wf {s : State} (a : Word64) (h : s.mem.wf) : (s.finishStep a).mem.wf := by
  rw [State.finishStep_mem]
  exact s.writeCells_wf _ h

/-! ## The checks of CSRW -/

/-- A CSRW that has no fault writes to `msr` a value whose reserved bits are 0. -/
theorem State.csrwFault_msr {s : State} {v : Word64} (h : s.csrwFault 0 v = none) :
    v &&& ~~~(msrWritable s.cfg.xlen) = 0 := by
  simpa [State.csrwFault] using h

/-- A CSRW that has no fault writes to `pvg` the value 0 or 2. -/
theorem State.csrwFault_pvg {s : State} {v : Word64} (h : s.csrwFault 1 v = none) : v = 0 ∨ v = 2 :=
  or_iff_not_imp_left.mpr (by simpa [State.csrwFault] using h)

theorem State.setCsr_msr (s : State) (n : Nat) (v : Word64) : (s.setCsr n v).msr = if n = 0 then v else s.msr := by
  split
  · rename_i hn
    rw [hn]
    rfl
  · rename_i hn
    have h := s.csr_setCsr n 0 v
    rw [if_neg fun e => hn e.1.symm] at h
    exact Option.some.inj h

theorem State.setCsr_pvg (s : State) (n : Nat) (v : Word64) : (s.setCsr n v).pvg = if n = 1 then v else s.pvg := by
  split
  · rename_i hn
    rw [hn]
    rfl
  · rename_i hn
    have h := s.csr_setCsr n 1 v
    rw [if_neg fun e => hn e.1.symm] at h
    exact Option.some.inj h

/-! ## The mode -/

/-- An instruction that completes keeps the mode legal: a trap sets 2, SYSRET and CSRW have tested their value. -/
theorem exec_keeps_legalMode {i : Instr} {s t : State} (h : s.legalMode) (he : exec i s = .next t) :
    t.legalMode := by
  cases exec_effect he with
  | systemCall _ => exact .inr rfl
  | systemReturn _ _ hm => exact hm
  | csrWrite rs1 n _ _ hf =>
    unfold State.legalMode
    rw [State.setPc_pvg, State.setCsr_pvg]
    split
    · rename_i hn
      exact State.csrwFault_pvg (hn ▸ hf)
    · exact h
  | writes | jumps | loads | stores => simpa [State.legalMode] using h

/-- A boundary leaves the mode alone or takes a trap into Kernel mode. -/
theorem State.boundary_pvg (s : State) (a : Word64) (i : EnvInput) :
    (s.boundary a i).pvg = s.pvg ∨ (s.boundary a i).pvg = 2 := by
  unfold State.boundary
  split
  · rcases (s.timerTick i).takeAsync_cases a with ⟨cause, -, -, e⟩ | ⟨-, -, e⟩ | ⟨-, -, e⟩ <;> rw [e]
    · exact .inr rfl
    · exact .inr rfl
    · exact .inl (s.timerTick_pvg i)
  · exact .inl rfl

theorem State.finishStep_keeps_legalMode {s : State} (a : Word64) (h : s.legalMode) :
    (s.finishStep a).legalMode := by
  unfold State.legalMode
  rw [State.finishStep_pvg]
  rcases s.boundary_pvg a s.input with e | e <;> rw [e]
  · exact h
  · exact .inr rfl

/-! ## The reserved bits of `msr` -/

/-- Only CSRW writes `msr`, and it has tested the reserved bits. -/
theorem exec_keeps_msrReservedZero {i : Instr} {s t : State} (h : s.msrReservedZero) (he : exec i s = .next t) :
    t.msrReservedZero := by
  unfold State.msrReservedZero at h ⊢
  rw [exec_cfg he]
  cases exec_effect he with
  | csrWrite rs1 n _ _ hf =>
    rw [State.setPc_msr, State.setCsr_msr]
    split
    · rename_i hn
      exact State.csrwFault_msr (hn ▸ hf)
    · exact h
  | writes | jumps | loads | stores | systemCall | systemReturn => simpa using h

/-! ## The invariant -/

theorem exec_keeps_inv {i : Instr} {s t : State} (h : s.inv) (he : exec i s = .next t) : t.inv := by
  obtain ⟨hmem, hmode, hmsr, hnarrow, hhtid⟩ := h
  refine ⟨exec_keeps_mem_wf hmem he, exec_keeps_legalMode hmode he, exec_keeps_msrReservedZero hmsr he,
    exec_keeps_narrowStorage hnarrow he, ?_⟩
  rw [exec_htid he, exec_cfg he]
  exact hhtid

theorem State.finishStep_keeps_inv {s : State} (a : Word64) (h : s.inv) : (s.finishStep a).inv := by
  obtain ⟨hmem, hmode, hmsr, hnarrow, hhtid⟩ := h
  refine ⟨State.finishStep_keeps_mem_wf a hmem, State.finishStep_keeps_legalMode a hmode, ?_,
    State.narrowStorage_finishStep a hnarrow, ?_⟩
  · unfold State.msrReservedZero
    rw [State.finishStep_msr, State.finishStep_cfg]
    exact hmsr
  · rw [State.finishStep_htid, State.finishStep_cfg]
    exact hhtid

/-- Settles O58: the instruction keeps each part of the invariant, and so do the boundary and the environment. -/
theorem stepKeepsTheInvariant : Obligations.StepKeepsTheInvariant := by
  intro s t h hstep
  obtain ⟨_, i, _, u, -, -, -, -, hexec, rfl⟩ := step_next hstep
  refine ⟨State.finishStep_keeps_inv s.ip (exec_keeps_inv h hexec), ?_⟩
  rw [State.finishStep_cfg, exec_cfg hexec]

/-- Settles O57: a store and the environment write memory byte by byte, and nothing else writes it. -/
theorem stepKeepsMemoryCanonical : Obligations.StepKeepsMemoryCanonical := by
  intro s t h hstep
  obtain ⟨_, i, _, u, -, -, -, -, hexec, rfl⟩ := step_next hstep
  exact State.finishStep_keeps_mem_wf s.ip (exec_keeps_mem_wf h hexec)

/-! ## The reserved CSR numbers (10_state.md R42) -/

/-- The numbers 0 to 10 exist and no other. -/
theorem State.csr_isSome_iff (s : State) (n : Nat) : (s.csr n).isSome = true ↔ n ≤ 10 := by
  by_cases h : n ≤ 10
  · interval_cases n <;> simp [State.csr]
  · have hnone : s.csr n = none := by
      unfold State.csr
      split
      case h_12 => rfl
      all_goals omega
    simp [hnone, h]

theorem State.kernel_iff (s : State) : s.kernel = true ↔ 2 ≤ s.pvg.toNat := decide_eq_true_iff

theorem State.kernel_eq_false_iff (s : State) : s.kernel = false ↔ s.pvg.toNat < 2 := by
  rw [← Bool.not_eq_true, State.kernel_iff, not_le]

theorem exec_csrr_reserved {s : State} {n : CsrNum} (r : RegNum) (hk : s.kernel = true) (hn : 11 ≤ n.toNat) :
    exec (.csrr r n) s = .fault .reservedCsr := by
  have hnone : s.csr n.toNat = none := by
    rw [← Option.not_isSome_iff_eq_none, State.csr_isSome_iff]
    omega
  simp [exec, execCsrr, hk, hnone]

theorem exec_csrw_reserved {s : State} {n : CsrNum} (r : RegNum) (hk : s.kernel = true) (hn : 11 ≤ n.toNat) :
    exec (.csrw r n) s = .fault .reservedCsr := by
  simp [exec, execCsrw, hk, State.csrwFault, hn]

theorem exec_csrr_user {s : State} (r : RegNum) (n : CsrNum) (hk : s.kernel = false) :
    exec (.csrr r n) s = s.retire (.csrr r n) r 0 := by
  simp [exec, execCsrr, hk]

theorem exec_csrw_user {s : State} (r : RegNum) (n : CsrNum) (hk : s.kernel = false) :
    exec (.csrw r n) s = .next (s.setPc s.seqPc) := by
  simp [exec, execCsrw, hk]

/-- In User mode CSRR of any number reads 0 (45_system.md R255). -/
theorem csrr_user_computes {s : State} (r : RegNum) (n : CsrNum) (hk : s.kernel = false) :
    Computes (.csrr r n) s r 0 :=
  Computes.of_retire (exec_csrr_user r n hk) BitVec.toNat_zero

/-- In User mode CSRW of any number goes on at `pc + 4` and changes nothing else (45_system.md R254). -/
theorem csrw_user_jumps {s : State} (r : RegNum) (n : CsrNum) (hk : s.kernel = false) :
    Jumps (.csrw r n) s s.seqNat := by
  obtain ⟨hpc, hframe⟩ := s.setPc_spec s.seqPc
  exact ⟨_, exec_csrw_user r n hk, hpc.trans s.seqPc_toNat, hframe⟩

/-- Settles O44: by the mode, Kernel or User. -/
theorem reservedCsrNumbers : Obligations.ReservedCsrNumbers := by
  intro s r n
  refine ⟨(s.csr_isSome_iff _).mpr, fun hn hmode => ?_, fun _ hmode => ?_⟩
  · have hk := s.kernel_iff.mpr hmode
    exact ⟨exec_csrr_reserved r hk hn, exec_csrw_reserved r hk hn⟩
  · have hk := s.kernel_eq_false_iff.mpr hmode
    exact ⟨csrr_user_computes r n hk, csrw_user_jumps r n hk⟩

/-! ## Reset (10_state.md R46) -/

/-- Settles O55: the fields that the reset state sets, and `htid` cut to `XLEN` bits by `Config.fit_toNat`. -/
theorem resetState : Obligations.ResetState := by
  intro c
  exact ⟨State.resetFor_pc c, State.reg_zero _, State.resetFor_msr c, State.resetFor_pvg c,
    Config.fit_toNat c c.htid, State.resetFor_cfg c, rfl⟩

/-- Every register reads 0 after reset (log entry 2). -/
theorem State.resetFor_reg (c : Config) (r : RegNum) : (State.resetFor c).reg r = 0 := by
  unfold State.reg
  split
  · rfl
  · simp only [State.resetFor_regs, Vector.getElem_replicate]
    decide

/-- The reset state holds values that fit: 0 everywhere but in `pvg` and `htid`. -/
theorem State.narrowStorage_resetFor (c : Config) : (State.resetFor c).narrowStorage := by
  have hzero : Config.Holds c 0 := Config.holds_of_lt (by decide)
  rw [State.narrowStorage_iff]
  refine ⟨fun r => State.resetFor_reg c r ▸ hzero, hzero, fun n v hv => ?_⟩
  unfold State.csr at hv
  split at hv <;> cases hv
  -- Number 1 is `pvg`, number 10 is `htid`.
  case h_2 => exact Config.holds_of_lt (v := 2) (by decide)
  case h_11 => exact Config.holds_fit c c.htid
  all_goals exact hzero

/-- Settles O56: each part of the invariant, from the fields of the reset state. -/
theorem resetMeetsTheInvariant : Obligations.ResetMeetsTheInvariant := by
  intro c
  refine ⟨State.resetFor_mem_wf c, .inr rfl, ?_, State.narrowStorage_resetFor c, rfl⟩
  unfold State.msrReservedZero
  rw [State.resetFor_msr]
  exact BitVec.zero_and

end Sys2Proof.Machine
end

section
/-! # The family of memory: accesses, devices and the fetch (20_memory.md)

`exec_load` and `exec_store` bring every load to `State.loadTo` and every store to `State.storeFrom`, so that each
statement is proved once for all sizes. The event of an access is `State.deviceBytes` of its cells; the two lemmas
`load_completesWithEvent` and `store_completesWithEvent` say what an access with a device byte does, whatever its other
bytes are. -/

namespace Sys2Proof

/-! ## The loads and the stores by size -/

theorem Instr.access_size {i : Instr} {rs1 : RegNum} {imm : Imm12} {n : Nat} (h : i.access = some (rs1, imm, n)) :
    n = 1 ∨ n = 2 ∨ n = 4 ∨ n = 8 := by
  cases i
  case stb | ldb | ldsb => cases h; decide
  case stw | ldw | ldsw => cases h; decide
  case std | ldd | ldsd => cases h; decide
  case stq | ldq => cases h; decide
  all_goals cases h

theorem Instr.isLoad_eq (i : Instr) : i.isLoad = i.loadDest.isSome := by cases i <;> rfl

theorem Instr.isStore_eq (i : Instr) : i.isStore = i.storeSource.isSome := by cases i <;> rfl

end Sys2Proof

namespace Sys2Proof.Machine

theorem zext64_toNat {w : Nat} (hw : w ≤ 64) (v : BitVec w) : (zext64 v).toNat = v.toNat := by
  unfold zext64
  rw [BitVec.toNat_setWidth]
  exact Nat.mod_eq_of_lt (lt_of_lt_of_le v.isLt (Nat.pow_le_pow_right (by decide) hw))

theorem sext64_toNat {w : Nat} (v : BitVec w) :
    (sext64 v).toNat = (((v.toNat : Int).bmod (2 ^ w)) % (2 ^ 64 : Nat)).toNat := by
  unfold sext64
  rw [BitVec.signExtend, BitVec.toNat_ofInt, BitVec.toInt_eq_toNat_bmod]

/-- Every load is `loadTo` with an extension that does to the number of the bytes what `loadValue` says. -/
theorem exec_load {i : Instr} {rd rs1 : RegNum} {imm : Imm12} {n : Nat} (hd : i.loadDest = some rd)
    (ha : i.access = some (rs1, imm, n)) :
    ∃ ext : BitVec (8 * n) → Word64, (∀ s, exec i s = s.loadTo rd rs1 imm n ext) ∧
      ∀ v, (ext v).toNat = i.loadValue n v.toNat := by
  cases i
  case ldb | ldw | ldd | ldq =>
    cases hd
    cases ha
    exact ⟨zext64, fun _ => rfl, zext64_toNat (by decide)⟩
  case ldsb | ldsw | ldsd =>
    cases hd
    cases ha
    exact ⟨sext64, fun _ => rfl, sext64_toNat⟩
  all_goals cases hd

/-- Every store is `storeFrom`. -/
theorem exec_store {i : Instr} {rs1 rs2 : RegNum} {imm : Imm12} {n : Nat} (hs : i.storeSource = some rs2)
    (ha : i.access = some (rs1, imm, n)) (s : State) : exec i s = s.storeFrom rs1 rs2 imm n := by
  cases i
  case stb | stw | std | stq =>
    cases hs
    cases ha
    rfl
  all_goals cases hs

/-! ## The address of an access (20_memory.md R63, R68) -/

theorem State.dvd_accessAddr (s : State) (rs1 : RegNum) (imm : Imm12) (n : Nat) : n ∣ s.accessAddr rs1 imm n :=
  Nat.dvd_mul_left _ _

/-- An access of a size that divides the address space does not run over its end. -/
theorem State.accessAddr_add_le (s : State) (rs1 : RegNum) (imm : Imm12) {n : Nat} (hn : n ∣ 2 ^ s.opWidth) :
    s.accessAddr rs1 imm n + n ≤ 2 ^ s.opWidth := by
  have hle : s.accessAddr rs1 imm n ≤ (s.ea rs1 imm).toNat := Nat.div_mul_le_self _ _
  have hea := (s.ea rs1 imm).isLt
  exact Nat.le_of_lt_add_of_dvd (by omega) ((s.dvd_accessAddr rs1 imm n).add (dvd_refl n)) hn

/-- Settles O26: every size of an access is a power of 2 that divides the address space. -/
theorem accessAddressIsForcedAligned : Obligations.AccessAddressIsForcedAligned := by
  intro s rs1 imm n hn
  have hdvd : n ∣ 2 ^ s.opWidth := by
    rcases s.opWidth_eq with hw | hw <;> rw [hw] <;> rcases hn with rfl | rfl | rfl | rfl <;> decide
  exact ⟨s.accessAddr_eq rs1 imm n, s.dvd_accessAddr rs1 imm n, s.accessAddr_add_le rs1 imm hdvd⟩

/-! ## Accesses that fault (20_memory.md R66) -/

/-- Settles O28: `load` answers the fault, whatever the size and the extension. -/
theorem loadOfAbsentByteFaults : Obligations.LoadOfAbsentByteFaults := by
  intro s i rs1 imm n k hi ha hk habs
  obtain ⟨rd, hd⟩ := Option.isSome_iff_exists.mp (i.isLoad_eq ▸ hi)
  obtain ⟨ext, hexec, -⟩ := exec_load hd ha
  rw [hexec, State.loadTo, s.load_absent _ n k hk habs]

/-- Settles O31: `store` answers the fault, whatever the size. -/
theorem storeToAbsentOrRomFaults : Obligations.StoreToAbsentOrRomFaults := by
  intro s i rs1 imm n k hi ha hk hbad
  obtain ⟨rs2, hs⟩ := Option.isSome_iff_exists.mp (i.isStore_eq ▸ hi)
  rw [exec_store hs ha, State.storeFrom, s.store_error _ n _ k hk hbad]

/-! ## Big-endian numbers (20_memory.md R60) -/

theorem beVal_concat (bytes : List Byte) (b : Byte) : beVal (bytes ++ [b]) = beVal bytes * 256 + b.toNat := by
  simp [beVal]

theorem beVal_lt (bytes : List Byte) : beVal bytes < 2 ^ (8 * bytes.length) := by
  induction bytes using List.reverseRecOn with
  | nil => decide
  | append_singleton bytes b ih =>
    have hb := b.isLt
    rw [beVal_concat, List.length_append, List.length_singleton, Nat.mul_add, pow_add]
    omega

/-- The bytes of a value, read back. -/
theorem beVal_beBytes (n : Nat) (v : BitVec (8 * n)) : beVal (beBytes n v) = v.toNat := by
  have leading_bytes : ∀ m ≤ n, beVal ((List.range m).map (beByte n v)) = v.toNat / 256 ^ (n - m) := by
    intro m
    induction m with
    | zero =>
      intro _
      have hv : v.toNat < 256 ^ n := Nat.pow_mul 2 8 n ▸ v.isLt
      exact (Nat.div_eq_of_lt hv).symm
    | succ m ih =>
      intro hm
      have hpow : 256 ^ (n - m) = 256 ^ (n - m - 1) * 256 := by
        rw [← pow_succ]
        congr 1
        omega
      rw [List.range_succ, List.map_append, List.map_singleton, beVal_concat, ih (by omega), beByte_toNat, hpow,
        ← Nat.div_div_eq_div_mul, Nat.sub_sub]
      omega
  simpa [beBytes] using leading_bytes n le_rfl

/-- Byte `k` of the data of a store of `n` bytes, as a digit of the whole register. -/
theorem State.beByte_storeData (s : State) (r : RegNum) {n k : Nat} (hk : k < n) :
    (beByte n (s.storeData r n) k).toNat = (s.reg r).toNat / 256 ^ (n - 1 - k) % 256 := by
  have hsplit : 2 ^ (8 * n) = 256 ^ (n - 1 - k) * 256 ^ (k + 1) := by
    rw [Nat.pow_mul, ← pow_add]
    congr 1
    omega
  have hdvd : 256 ∣ 256 ^ (k + 1) := dvd_pow_self _ (by omega)
  rw [beByte_toNat, State.storeData_eq, BitVec.toNat_setWidth, Nat.sub_right_comm, hsplit,
    Nat.mod_mul_right_div_self, Nat.mod_mod_of_dvd _ hdvd]

/-! ## The bytes of a store in memory -/

/-- A run of cells puts its value at each of its addresses that is ram, whatever the kinds of the others. -/
theorem State.writeCells_read_ram (s : State) (addr n : Nat) (f : Nat → Byte) {k : Nat} (hk : k < n)
    (hram : s.kindAt (addr + k) = .ram) :
    (s.writeCells ((List.range n).map fun j => (addr + j, f j))).mem.read (addr + k) = f k := by
  induction n with
  | zero => omega
  | succ n ih =>
    rw [State.writeCells_mem, List.range_succ, List.map_append, List.map_singleton, List.foldl_concat]
    rcases Nat.lt_succ_iff_lt_or_eq.mp hk with hlt | rfl
    · have ih := ih hlt
      rw [State.writeCells_mem] at ih
      split
      · rw [Memory.read_write, if_neg (by dsimp only; omega), ih]
      · exact ih
    · rw [if_pos hram, Memory.read_write, if_pos rfl]

/-- After a store of `n` bytes of a register, a ram byte among them reads its digit of the register. -/
theorem State.read_store_ram (s : State) (r : RegNum) {addr n k : Nat} (hk : k < n)
    (hram : s.kindAt (addr + k) = .ram) :
    ((s.writeCells (storeCells addr n (s.storeData r n))).mem.read (addr + k)).toNat =
      (s.reg r).toNat / 256 ^ (n - 1 - k) % 256 := by
  rw [storeCells, s.writeCells_read_ram addr n _ hk hram, s.beByte_storeData r hk]

/-- A store leaves alone every byte that is not ram or lies outside the access. -/
theorem State.read_store_other (s : State) {addr n a : Nat} (v : BitVec (8 * n))
    (h : s.kindAt a ≠ .ram ∨ a < addr ∨ addr + n ≤ a) :
    (s.writeCells (storeCells addr n v)).mem.read a = s.mem.read a := by
  refine s.writeCells_read_other _ a (h.imp_right fun hout c hc => ?_)
  have := State.storeCells_mem hc
  omega

/-- Settles O33: the four bytes of the dword in ram, and the last two of them as a number. -/
theorem mixedWidthAccess : Obligations.MixedWidthAccess := by
  intro s t rs1 rs2 imm hram ht
  obtain ⟨u, hstore, rfl, -, -⟩ := s.store_ram (s.accessAddr rs1 imm 4) 4 (s.storeData rs2 4) hram
  rw [exec_store rfl rfl, State.storeFrom, hstore] at ht
  cases ht
  have hbytes : ∀ k < 4, _ := fun k hk => s.read_store_ram rs2 hk (hram k hk)
  refine ⟨hbytes, ?_⟩
  have hthird := hbytes 2 (by decide)
  have hfourth := hbytes 3 (by decide)
  simp only [State.memNat, State.setPc_mem, Nat.add_assoc, Nat.reduceAdd, Nat.add_zero, hthird, hfourth]
  omega

/-! ## Device bytes (20_memory.md R67) -/

theorem State.deviceBytes_congr {s t : State} (h : t.cfg = s.cfg) : t.deviceBytes = s.deviceBytes := by
  unfold State.deviceBytes
  simp only [State.kindAt_congr h]

/-- Where every cell belongs to a device, the event holds the values of all of them. -/
theorem State.deviceBytes_values {s : State} {cells : List Host.Cell} (h : ∀ c ∈ cells, s.isDevice c.1 = true) :
    (s.deviceBytes cells).map (·.value) = cells.map (·.2) := by
  induction cells with
  | nil => rfl
  | cons c rest ih =>
    obtain ⟨d, hd⟩ := (s.isDevice_iff c.1).mp (h c List.mem_cons_self)
    have ih := ih fun c hc => h c (List.mem_cons_of_mem _ hc)
    unfold State.deviceBytes at ih ⊢
    rw [List.filterMap_cons]
    simp only [hd, List.map_cons, ih]

/-- The cells of an access: its addresses in order, each with its byte `f k`. -/
def accessCells (addr n : Nat) (f : Nat → Byte) : List Host.Cell := (List.range n).map fun k => (addr + k, f k)

/-- Every device byte in the event of an access is one of its bytes. -/
theorem State.mem_deviceBytes_accessCells {s : State} {addr n : Nat} {f : Nat → Byte} {b : DeviceByte}
    (h : b ∈ s.deviceBytes (accessCells addr n f)) : ∃ k < n, b.addr = addr + k ∧ b.value = f k := by
  obtain ⟨k, hk, hcell⟩ := List.mem_map.mp (State.mem_deviceBytes h).2
  obtain ⟨ha, hv⟩ := Prod.mk.inj hcell
  exact ⟨k, List.mem_range.mp hk, ha.symm, hv.symm⟩

/-- Where every byte belongs to a device, the values in the event are the number of all bytes, big-endian. -/
theorem State.foldl_deviceBytes {s : State} {addr n : Nat} (f : Nat → Byte)
    (h : ∀ k < n, s.isDevice (addr + k) = true) :
    (s.deviceBytes (accessCells addr n f)).foldl (fun acc b => acc * 256 + b.value.toNat) 0 =
      beVal ((List.range n).map f) := by
  have hcells : ∀ c ∈ accessCells addr n f, s.isDevice c.1 = true := by simpa [accessCells] using h
  have hvalues : (accessCells addr n f).map (·.2) = (List.range n).map f := by simp [accessCells]
  rw [← hvalues, ← State.deviceBytes_values hcells, beVal, List.foldl_map]

/-- The event of an access names its device bytes in address order. -/
theorem State.deviceBytes_accessCells_addrs (s : State) (addr n : Nat) (f : Nat → Byte) :
    (s.deviceBytes (accessCells addr n f)).map (·.addr) = ((List.range n).map (addr + ·)).filter s.isDevice := by
  rw [State.deviceBytes_addrs, accessCells, List.map_map]
  rfl

/-- An access that touches a device byte has an event. -/
theorem State.deviceBytes_accessCells_ne_nil {s : State} {addr n : Nat} (f : Nat → Byte)
    (h : ∃ k < n, s.isDevice (addr + k) = true) : s.deviceBytes (accessCells addr n f) ≠ [] := by
  obtain ⟨k, hk, hdev⟩ := h
  intro hnil
  have haddrs := s.deviceBytes_accessCells_addrs addr n f
  rw [hnil, List.map_nil, eq_comm, List.filter_eq_nil_iff] at haddrs
  exact haddrs (addr + k) (List.mem_map_of_mem (List.mem_range.mpr hk)) hdev

theorem State.filter_isDevice_all {s : State} {addr n : Nat} (h : ∀ k < n, s.isDevice (addr + k) = true) :
    ((List.range n).map (addr + ·)).filter s.isDevice = (List.range n).map (addr + ·) := by
  simpa using h

theorem State.kindAt_of_isDevice {s : State} {a : Nat} (h : s.isDevice a = true) :
    s.kindAt a ≠ .absent ∧ s.kindAt a ≠ .rom ∧ s.kindAt a ≠ .ram := by
  obtain ⟨d, hd⟩ := (s.isDevice_iff a).mp h
  simp [hd]

theorem State.byteAt_of_not_device {s : State} {a : Nat} (h : s.isDevice a = false) : s.byteAt a = s.mem.read a := by
  unfold State.byteAt
  split
  · rename_i d hd
    exact absurd ((s.isDevice_iff a).mpr ⟨d, hd⟩) (by simp [h])
  all_goals rfl

/-! ## Loads that touch a device -/

theorem State.load_readable {s : State} {addr n : Nat} (h : s.readable addr n = true) :
    s.load addr n = .ok (BitVec.ofNat (8 * n) (beVal (s.bytesAt addr n)),
      s.noteAccess false addr n (accessCells addr n fun k => s.byteAt (addr + k))) := by
  unfold State.load
  exact if_pos h

theorem State.beVal_bytesAt_lt (s : State) (addr n : Nat) : beVal (s.bytesAt addr n) < 2 ^ (8 * n) := by
  simpa [State.bytesAt] using beVal_lt (s.bytesAt addr n)

/-- `x[rd] <- v` does what the statements call `RegLoaded`, also where other parts of the state have changed before. -/
theorem State.setReg_regLoaded {s u : State} (hc : u.cfg = s.cfg) (hr : u.regs = s.regs) (rd : RegNum) (v : Word64) :
    RegLoaded s (u.setReg rd v) rd v.toNat := by
  refine ⟨fun r hne => ?_, State.reg_zero _, fun h0 => ?_⟩
  · rw [State.reg_setReg, if_neg fun h => hne h.1, State.reg_congr hr]
  · rw [State.reg_setReg, if_pos ⟨rfl, h0⟩, Config.fit_toNat, hc]

/-- A load from bytes that exist, a device byte among them: one event, and the number of the bytes it answered. -/
theorem load_completesWithEvent {i : Instr} {s : State} {rd rs1 : RegNum} {imm : Imm12} {n addr : Nat}
    (hd : i.loadDest = some rd) (ha : i.access = some (rs1, imm, n)) (haddr : s.accessAddr rs1 imm n = addr)
    (hr : ∀ k < n, s.kindAt (addr + k) ≠ .absent) (hdev : ∃ k < n, s.isDevice (addr + k) = true) :
    ∃ t, CompletesWithEvent i s t false addr n
        (s.deviceBytes (accessCells addr n fun k => s.byteAt (addr + k))) ∧
      RegLoaded s t rd (i.loadValue n (beVal (s.bytesAt addr n))) ∧ SameMemory s t := by
  obtain ⟨ext, hexec, hext⟩ := exec_load hd ha
  have hload := State.load_readable ((s.readable_iff addr n).mpr hr)
  rw [State.noteAccess_device _ _ _ _ _ (State.deviceBytes_accessCells_ne_nil _ hdev)] at hload
  have hexec := hexec s
  rw [State.loadTo, haddr, hload] at hexec
  refine ⟨_, ⟨hexec, by simp, fun b hb => (State.mem_deviceBytes hb).1, ?_, by simp [SameCsrs],
    by simp [SamePlatform]⟩, ?_, fun a => by simp⟩
  · rw [State.setPc_pc, State.toNat_setWidth64, State.seqPc_toNat]
  · have hvalue := hext (BitVec.ofNat (8 * n) (beVal (s.bytesAt addr n)))
    rw [BitVec.toNat_ofNat, Nat.mod_eq_of_lt (s.beVal_bytesAt_lt addr n)] at hvalue
    rw [← hvalue]
    exact State.setReg_regLoaded rfl rfl rd _

/-- Settles O29: where all bytes belong to devices the event holds all of them; else each byte is `byteAt`. -/
theorem deviceLoadsAreEvents : Obligations.DeviceLoadsAreEvents := by
  intro s i rd rs1 imm n hd ha addr
  have hpos : 0 < n := by have := Instr.access_size ha; omega
  constructor
  · intro hall
    obtain ⟨t, hevent, hreg, hmem⟩ := load_completesWithEvent hd ha rfl
      (fun k hk => (State.kindAt_of_isDevice (hall k hk)).1) ⟨0, hpos, hall 0 hpos⟩
    refine ⟨t, _, hevent, ?_, ?_, hmem⟩
    · rw [State.deviceBytes_accessCells_addrs, State.filter_isDevice_all hall]
    · rwa [State.foldl_deviceBytes _ hall]
  · intro hexist hdev _
    obtain ⟨t, hevent, hreg, hmem⟩ := load_completesWithEvent hd ha rfl hexist hdev
    refine ⟨t, _, s.byteAt, hevent, s.deviceBytes_accessCells_addrs addr n _, ?_, ?_, ?_, hmem⟩
    · intro b hb
      obtain ⟨k, -, hba, hbv⟩ := State.mem_deviceBytes_accessCells hb
      rw [hba, hbv]
    · exact fun k _ hnot => State.byteAt_of_not_device hnot
    · simpa only [beVal, State.bytesAt, List.foldl_map] using hreg

/-! ## Stores that touch a device -/

theorem storeCells_eq (addr n : Nat) (v : BitVec (8 * n)) : storeCells addr n v = accessCells addr n (beByte n v) := rfl

/-- A store to ram and device bytes, a device byte among them: one event, and memory as `writeCells` leaves it. -/
theorem store_completesWithEvent {i : Instr} {s : State} {rs1 rs2 : RegNum} {imm : Imm12} {n addr : Nat}
    (hs : i.storeSource = some rs2) (ha : i.access = some (rs1, imm, n)) (haddr : s.accessAddr rs1 imm n = addr)
    (hw : ∀ k < n, s.kindAt (addr + k) = .ram ∨ s.isDevice (addr + k) = true)
    (hdev : ∃ k < n, s.isDevice (addr + k) = true) :
    ∃ t, CompletesWithEvent i s t true addr n (s.deviceBytes (storeCells addr n (s.storeData rs2 n))) ∧
      t.mem = (s.writeCells (storeCells addr n (s.storeData rs2 n))).mem ∧ SameRegs s t := by
  have hwritable : s.writable addr n = true := by
    rw [State.writable_iff]
    intro k hk
    rcases hw k hk with hram | hd
    · simp [hram]
    · exact ⟨(State.kindAt_of_isDevice hd).1, (State.kindAt_of_isDevice hd).2.1⟩
  have hsame := State.deviceBytes_congr (s.writeCells_cfg (storeCells addr n (s.storeData rs2 n)))
  have hexec := exec_store hs ha s
  rw [State.storeFrom, haddr, State.store, if_pos hwritable, State.noteAccess_device, hsame] at hexec
  · refine ⟨_, ⟨hexec, by simp, fun b hb => (State.mem_deviceBytes hb).1, ?_, by simp [SameCsrs],
      by simp [SamePlatform]⟩, rfl, fun r => State.reg_congr rfl r⟩
    rw [State.setPc_pc, State.toNat_setWidth64, State.seqPc_toNat]
  · rw [hsame, storeCells_eq]
    exact State.deviceBytes_accessCells_ne_nil _ hdev

/-- Settles O32: where all bytes belong to devices no byte of memory is written; else each ram byte is. -/
theorem deviceStoresAreEvents : Obligations.DeviceStoresAreEvents := by
  intro s i rs1 rs2 imm n hs ha addr
  have hpos : 0 < n := by have := Instr.access_size ha; omega
  constructor
  · intro hall
    obtain ⟨t, hevent, hmem, hregs⟩ := store_completesWithEvent hs ha rfl (fun k hk => .inr (hall k hk))
      ⟨0, hpos, hall 0 hpos⟩
    refine ⟨t, _, hevent, ?_, ?_, hregs, fun a => ?_⟩
    · rw [storeCells_eq, State.deviceBytes_accessCells_addrs, State.filter_isDevice_all hall]
    · rw [storeCells_eq, State.foldl_deviceBytes _ hall, ← beBytes, beVal_beBytes, State.storeData_eq,
        BitVec.toNat_setWidth]
    · rw [hmem]
      refine s.read_store_other _ ?_
      by_cases hout : a < addr ∨ addr + n ≤ a
      · exact .inr hout
      · obtain ⟨k, rfl⟩ := Nat.exists_eq_add_of_le (show addr ≤ a by omega)
        exact .inl (State.kindAt_of_isDevice (hall k (by omega))).2.2
  · intro hkinds hdev _
    obtain ⟨t, hevent, hmem, hregs⟩ := store_completesWithEvent hs ha rfl hkinds hdev
    refine ⟨t, _, hevent, s.deviceBytes_accessCells_addrs addr n _,
      fun k hk => ⟨fun b hb hba => ?_, fun hram => ?_⟩, fun a hout => ?_, hregs⟩
    · obtain ⟨j, -, hja, hjv⟩ := State.mem_deviceBytes_accessCells hb
      obtain rfl : j = k := by omega
      rw [hjv, s.beByte_storeData rs2 hk]
    · rw [hmem]
      exact s.read_store_ram rs2 hk hram
    · rw [hmem]
      exact s.read_store_other _ hout

/-! ## The fetch (20_memory.md R64, R66, R70) -/

/-- The alignment of the fetch is that of `pc`: both widths keep its low bits. -/
theorem State.ip_extractLsb (s : State) : s.ip.extractLsb' 0 2 = s.pc.extractLsb' 0 2 := by
  apply BitVec.eq_of_toNat_eq
  rw [BitVec.extractLsb'_toNat, BitVec.extractLsb'_toNat, State.ip_toNat, Nat.shiftRight_zero, Nat.shiftRight_zero]
  have hdvd : 2 ^ 2 ∣ 2 ^ s.opWidth := Nat.pow_dvd_pow 2 (by rcases s.opWidth_eq with hw | hw <;> omega)
  exact Nat.mod_mod_of_dvd _ hdvd

/-- Settles O7: the alignment is tested before the fetch. -/
theorem misalignedFetchFaults : Obligations.MisalignedFetchFaults := by
  intro s hvalid hpc
  rw [← State.ip_extractLsb] at hpc
  unfold step
  rw [if_neg (by simp [hvalid]), if_pos hpc]

theorem Config.executable_iff (c : Config) (a : Nat) :
    c.executable a = true ↔ memKindAt c.memMap a = .ram ∨ memKindAt c.memMap a = .rom := by
  unfold Config.executable
  cases memKindAt c.memMap a <;> simp

/-- Every byte of a fetch is ram or rom, or the fetch faults. -/
theorem State.fetchable_iff (s : State) (addr n : Nat) : s.fetchable addr n = true ↔ s.plainMemory addr n := by
  simp [State.fetchable, State.plainMemory, State.kindAt, Config.executable_iff]

theorem State.fetchBytes_error {s : State} (h : ¬ s.plainMemory s.ip.toNat 4) :
    s.fetchBytes = .error .unmappedAccess := by
  unfold State.fetchBytes
  rw [if_neg (mt (s.fetchable_iff _ _).mp h)]

theorem step_of_fetch_error {s : State} {f : Fault} (hvalid : s.cfg.valid = true) (hpc : s.pc.extractLsb' 0 2 = 0)
    (hf : s.fetchBytes = .error f) : step s = .fault f := by
  rw [← State.ip_extractLsb] at hpc
  simp [step, hvalid, hpc, hf]

/-- Settles O8: a byte that is absent or a device's is neither ram nor rom. -/
theorem unmappedFetchFaults : Obligations.UnmappedFetchFaults := by
  intro s k hvalid hpc hk hkind
  refine step_of_fetch_error hvalid hpc (State.fetchBytes_error fun hplain => ?_)
  have hmemory := hplain k hk
  rcases hkind with habs | ⟨d, hdev⟩
  · rw [habs] at hmemory
    simp at hmemory
  · rw [hdev] at hmemory
    simp at hmemory

end Sys2Proof.Machine
end

section
/-! # The family of the encoding: the decoder, the encoder and the opcode table (30_encoding.md)

`decode_eq_ok_iff` says that a word decodes to an instruction exactly when it is that instruction's encoding and the
instruction exists in the configuration; both round trips are read off it. Its two halves go by the decoder's own cases,
with the laws of the formats: the fields of an encoded word, and a word made of its fields. The opcode table is tied to
the encoder row by row, and so to the decoder. -/

namespace Sys2Proof

/-! ## A word whose fixed fields are known is an encoding of its other fields -/

theorem encDi_of_fields {w : InstrWord} {op : BitVec 6} (hop : fOpcode w = op) :
    encDi op (fRd w) (fImmDi w) = w :=
  hop ▸ encDi_fields w

theorem encDss_of_fields {w : InstrWord} {op : BitVec 6} {fn4 : BitVec 4} {fn7 : BitVec 7} (hop : fOpcode w = op)
    (hfn4 : fFn4 w = fn4) (hfn7 : fFn7 w = fn7) : encDss op (fRd w) (fRs1 w) fn4 (fRs2 w) fn7 = w := by
  subst hop hfn4 hfn7
  exact encDss_fields w

theorem encDsi_of_fields {w : InstrWord} {op : BitVec 6} {fn4 : BitVec 4} (hop : fOpcode w = op)
    (hfn4 : fFn4 w = fn4) : encDsi op (fRd w) (fRs1 w) fn4 (fImmDsi w) = w := by
  subst hop hfn4
  exact encDsi_fields w

theorem encSsi_of_fields {w : InstrWord} {op : BitVec 6} {fn4 : BitVec 4} (hop : fOpcode w = op)
    (hfn4 : fFn4 w = fn4) : encSsi op (fRs1 w) fn4 (fRs2 w) (fImmSsi w) = w := by
  subst hop hfn4
  exact encSsi_fields w

/-! ## The CSR number (30_encoding.md R106) -/

/-- The number has an encoding under the reading of the field: 12 bits, or 5 bits. -/
def CsrField.Holds (f : CsrField) (n : CsrNum) : Prop := f = .rs2field → n.toNat < 32

theorem csrEncodable_csrw_iff (r : RegNum) (n : CsrNum) (f : CsrField) :
    (Instr.csrw r n).csrEncodable f = true ↔ f.Holds n := by
  cases f <;> simp [Instr.csrEncodable, CsrField.Holds]

theorem csrEncodable_csrr_iff (r : RegNum) (n : CsrNum) (f : CsrField) :
    (Instr.csrr r n).csrEncodable f = true ↔ f.Holds n := by
  cases f <;> simp [Instr.csrEncodable, CsrField.Holds]

@[simp] theorem fOpcode_encCsr (f : CsrField) (rd rs1 : RegNum) (fn4 : BitVec 4) (n : CsrNum) :
    fOpcode (encCsr f rd rs1 fn4 n) = 0x0A := by
  cases f <;> simp [encCsr]

@[simp] theorem fRd_encCsr (f : CsrField) (rd rs1 : RegNum) (fn4 : BitVec 4) (n : CsrNum) :
    fRd (encCsr f rd rs1 fn4 n) = rd := by
  cases f <;> simp [encCsr]

@[simp] theorem fRs1_encCsr (f : CsrField) (rd rs1 : RegNum) (fn4 : BitVec 4) (n : CsrNum) :
    fRs1 (encCsr f rd rs1 fn4 n) = rs1 := by
  cases f <;> simp [encCsr]

@[simp] theorem fFn4_encCsr (f : CsrField) (rd rs1 : RegNum) (fn4 : BitVec 4) (n : CsrNum) :
    fFn4 (encCsr f rd rs1 fn4 n) = fn4 := by
  cases f <;> simp [encCsr]

theorem decodeCsrNum_encCsr {f : CsrField} {n : CsrNum} (h : f.Holds n) (rd rs1 : RegNum) (fn4 : BitVec 4) :
    decodeCsrNum f (encCsr f rd rs1 fn4 n) = .ok n := by
  cases f
  case imm12 => simp [decodeCsrNum, encCsr]
  case rs2field =>
    have hlt : n.toNat < 32 := h rfl
    have hn : (n.setWidth 5).setWidth 12 = n := by bv_omega
    simp [decodeCsrNum, encCsr, hn]

theorem encCsr_of_decodeCsrNum {f : CsrField} {w : InstrWord} {n : CsrNum} (hop : fOpcode w = 0x0A)
    (h : decodeCsrNum f w = .ok n) : encCsr f (fRd w) (fRs1 w) (fFn4 w) n = w ∧ f.Holds n := by
  cases f
  case imm12 =>
    cases h
    exact ⟨encDsi_of_fields hop rfl, nofun⟩
  case rs2field =>
    simp only [decodeCsrNum] at h
    split at h
    · cases h
    · rename_i hfn7
      cases h
      have hlt : (fRs2 w).toNat < 32 := (fRs2 w).isLt
      have hrs2 : ((fRs2 w).setWidth 12).setWidth 5 = fRs2 w := by bv_omega
      refine ⟨?_, fun _ => by bv_omega⟩
      rw [encCsr, hrs2]
      exact encDss_of_fields hop rfl (not_not.mp hfn7)

/-! ## Decoding an encoding -/

/-- Opcode by opcode: the family's decoder finds the operands in the fields of the word. -/
theorem rawDecode_encode {f : CsrField} {i : Instr} (h : i.csrEncodable f = true) :
    rawDecode f (encode f i) = .ok i := by
  cases i
  case csrw r n =>
    simp [encode, rawDecode, decodeCsr, decodeCsrNum_encCsr ((csrEncodable_csrw_iff r n f).mp h)]
  case csrr r n =>
    simp [encode, rawDecode, decodeCsr, decodeCsrNum_encCsr ((csrEncodable_csrr_iff r n f).mp h)]
  case syscall | sysret => simp [encode, rawDecode, decodeSysOp]
  case add | sub | and | or | xor | shr | asr | shl | cch | bch => simp [encode, rawDecode, decodeArith]
  case addi | andi | ori | xori | shri | asri | shli | cchi | bchi => simp [encode, rawDecode, decodeArithImm]
  case lui | jal => simp [encode, rawDecode]
  case stb | stw | std | stq => simp [encode, rawDecode, decodeStore]
  case ldb | ldw | ldd | ldq | ldsb | ldsw | ldsd => simp [encode, rawDecode, decodeLoad]
  case jalr => simp [encode, rawDecode, decodeJalr]
  case jeq | jlt | jslt | jne | jge | jsge => simp [encode, rawDecode, decodeCondJump]
  case mul | smul | mulh | smulh | div | sdiv | mod | smod => simp [encode, rawDecode, decodeMulDiv]

/-! ## Encoding what was decoded

Each decoder leaves the opcode to `rawDecode`; with it, the fields it tested are those the encoder writes. -/

theorem encode_of_decodeArith {f : CsrField} {w : InstrWord} {i : Instr} (hop : fOpcode w = 0x00)
    (h : decodeArith w = .ok i) : encode f i = w ∧ i.csrEncodable f = true := by
  simp only [decodeArith] at h
  split at h
  · cases h
  · rename_i hfn7
    split at h <;> cases h <;> exact ⟨encDss_of_fields hop ‹_› (not_not.mp hfn7), rfl⟩

theorem encode_of_decodeMulDiv {f : CsrField} {w : InstrWord} {i : Instr} (hop : fOpcode w = 0x0B)
    (h : decodeMulDiv w = .ok i) : encode f i = w ∧ i.csrEncodable f = true := by
  simp only [decodeMulDiv] at h
  split at h
  · cases h
  · rename_i hfn7
    split at h <;> cases h <;> exact ⟨encDss_of_fields hop ‹_› (not_not.mp hfn7), rfl⟩

theorem encode_of_decodeArithImm {f : CsrField} {w : InstrWord} {i : Instr} (hop : fOpcode w = 0x01)
    (h : decodeArithImm w = .ok i) : encode f i = w ∧ i.csrEncodable f = true := by
  simp only [decodeArithImm] at h
  split at h <;> cases h <;> exact ⟨encDsi_of_fields hop ‹_›, rfl⟩

theorem encode_of_decodeLoad {f : CsrField} {w : InstrWord} {i : Instr} (hop : fOpcode w = 0x04)
    (h : decodeLoad w = .ok i) : encode f i = w ∧ i.csrEncodable f = true := by
  simp only [decodeLoad] at h
  split at h <;> cases h <;> exact ⟨encDsi_of_fields hop ‹_›, rfl⟩

theorem encode_of_decodeJalr {f : CsrField} {w : InstrWord} {i : Instr} (hop : fOpcode w = 0x06)
    (h : decodeJalr w = .ok i) : encode f i = w ∧ i.csrEncodable f = true := by
  simp only [decodeJalr] at h
  split at h <;> cases h
  exact ⟨encDsi_of_fields hop ‹_›, rfl⟩

theorem encode_of_decodeStore {f : CsrField} {w : InstrWord} {i : Instr} (hop : fOpcode w = 0x03)
    (h : decodeStore w = .ok i) : encode f i = w ∧ i.csrEncodable f = true := by
  simp only [decodeStore] at h
  split at h <;> cases h <;> exact ⟨encSsi_of_fields hop ‹_›, rfl⟩

theorem encode_of_decodeCondJump {f : CsrField} {w : InstrWord} {i : Instr} (hop : fOpcode w = 0x07)
    (h : decodeCondJump w = .ok i) : encode f i = w ∧ i.csrEncodable f = true := by
  simp only [decodeCondJump] at h
  split at h <;> cases h <;> exact ⟨encSsi_of_fields hop ‹_›, rfl⟩

/-- A word that passes the tests of SYSCALL and SYSRET is its opcode with every other field 0. -/
theorem decodeSysOp_ok {w : InstrWord} {i j : Instr} {op : BitVec 6} (hop : fOpcode w = op)
    (h : decodeSysOp j w = .ok i) : i = j ∧ encDss op 0 0 0 0 0 = w := by
  simp only [decodeSysOp] at h
  split at h
  · cases h
  · rename_i hfn4
    split at h
    · cases h
    · rename_i hfn7
      split at h
      · cases h
      · rename_i hregs
        simp only [not_or, not_not] at hfn4 hfn7 hregs
        obtain ⟨hrd, hrs1, hrs2⟩ := hregs
        cases h
        have hw := encDss_of_fields hop hfn4 hfn7
        rw [hrd, hrs1, hrs2] at hw
        exact ⟨rfl, hw⟩

theorem encode_of_decodeCsr {f : CsrField} {w : InstrWord} {i : Instr} (hop : fOpcode w = 0x0A)
    (h : decodeCsr f w = .ok i) : encode f i = w ∧ i.csrEncodable f = true := by
  unfold decodeCsr at h
  split at h
  · cases h
  · rename_i n hnum
    obtain ⟨hw, hn⟩ := encCsr_of_decodeCsrNum hop hnum
    split at h
    case h_1 hfn4 =>
      split at h
      · cases h
      · rename_i hrd
        cases h
        rw [not_not.mp hrd, hfn4] at hw
        exact ⟨hw, (csrEncodable_csrw_iff _ _ _).mpr hn⟩
    case h_2 hfn4 =>
      split at h
      · cases h
      · rename_i hrs1
        cases h
        rw [not_not.mp hrs1, hfn4] at hw
        exact ⟨hw, (csrEncodable_csrr_iff _ _ _).mpr hn⟩
    case h_3 => cases h

/-- One case for each assigned opcode, in the order of the opcode map. -/
theorem encode_of_rawDecode {f : CsrField} {w : InstrWord} {i : Instr} (h : rawDecode f w = .ok i) :
    encode f i = w ∧ i.csrEncodable f = true := by
  unfold rawDecode at h
  split at h <;> rename_i hop
  · exact encode_of_decodeArith hop h
  · exact encode_of_decodeArithImm hop h
  · cases h
    exact ⟨encDi_of_fields hop, rfl⟩
  · exact encode_of_decodeStore hop h
  · exact encode_of_decodeLoad hop h
  · cases h
    exact ⟨encDi_of_fields hop, rfl⟩
  · exact encode_of_decodeJalr hop h
  · exact encode_of_decodeCondJump hop h
  · obtain ⟨rfl, hw⟩ := decodeSysOp_ok hop h
    exact ⟨hw, rfl⟩
  · obtain ⟨rfl, hw⟩ := decodeSysOp_ok hop h
    exact ⟨hw, rfl⟩
  · exact encode_of_decodeCsr hop h
  · exact encode_of_decodeMulDiv hop h
  · cases h

/-! ## The round trips -/

theorem rawDecode_eq_ok_iff {f : CsrField} {w : InstrWord} {i : Instr} :
    rawDecode f w = .ok i ↔ encode f i = w ∧ i.csrEncodable f = true := by
  refine ⟨encode_of_rawDecode, ?_⟩
  rintro ⟨rfl, hcsr⟩
  exact rawDecode_encode hcsr

/-- The words of an instruction in a configuration: none but its encoding, and that one where it is well formed. -/
theorem decode_eq_ok_iff {c : Config} {w : InstrWord} {i : Instr} :
    decode c w = .ok i ↔ encode c.csrField i = w ∧ i.wellFormed c = true := by
  simp only [Instr.wellFormed, Bool.and_eq_true]
  constructor
  · intro h
    obtain ⟨hraw, hneeds, hregs⟩ := Machine.decode_ok h
    obtain ⟨hw, hcsr⟩ := rawDecode_eq_ok_iff.mp hraw
    exact ⟨hw, ⟨hneeds, hregs⟩, hcsr⟩
  · rintro ⟨hw, ⟨hneeds, hregs⟩, hcsr⟩
    simp [decode, rawDecode_eq_ok_iff.mpr ⟨hw, hcsr⟩, hneeds, hregs]

/-- Settles O1: the encoding of a well-formed instruction is a word of it, by `decode_eq_ok_iff`. -/
theorem encodeDecodeRoundTrip : Obligations.EncodeDecodeRoundTrip :=
  fun _ _ hwf => decode_eq_ok_iff.mpr ⟨rfl, hwf⟩

/-- Settles O2: by `decode_eq_ok_iff`, read the other way. -/
theorem decodeEncodeRoundTrip : Obligations.DecodeEncodeRoundTrip :=
  fun _ _ _ h => decode_eq_ok_iff.mp h

/-- Twelve bits hold every CSR number. -/
theorem csrEncodable_imm12 (i : Instr) : i.csrEncodable .imm12 = true := by
  cases i <;> rfl

/-- Under `CSR_FIELD = imm12` two instructions never share a word. -/
theorem encode_injective : Function.Injective (encode .imm12) := by
  intro i j h
  have hi := rawDecode_encode (csrEncodable_imm12 i)
  rw [h, rawDecode_encode (csrEncodable_imm12 j)] at hi
  exact (Except.ok.inj hi).symm

/-- Settles O4: the decoder is run on each word. -/
theorem writtenOutWordsDecode : Obligations.WrittenOutWordsDecode := by
  unfold Obligations.WrittenOutWordsDecode
  decide

/-! ## The opcode table (30_encoding.md R99, R100)

The rows and the instructions are matched in both directions: a word that matches a row is the encoding of an
instruction with the row's mnemonic, needs and registers (`TableRow.Covered`, proved once for each format), and the
encoding of every instruction matches some row. -/

/-- The registers that the row's instruction uses in a word. -/
def TableRow.regsIn (r : TableRow) (w : InstrWord) : List RegNum :=
  (if r.usesRd then [fRd w] else []) ++ (if r.usesRs1 then [fRs1 w] else []) ++ (if r.usesRs2 then [fRs2 w] else [])

theorem TableRow.holds_iff (r : TableRow) (c : Config) (w : InstrWord) :
    r.holds c w ↔ w &&& r.mask = r.value ∧ r.needs.met c = true ∧ ∀ x ∈ r.regsIn w, x.toNat < c.nregs := by
  have hregs : (∀ x ∈ r.regsIn w, x.toNat < c.nregs) ↔
      (r.usesRd = true → (fRd w).toNat < c.nregs) ∧ (r.usesRs1 = true → (fRs1 w).toNat < c.nregs) ∧
        (r.usesRs2 = true → (fRs2 w).toNat < c.nregs) := by
    cases hrd : r.usesRd <;> cases hrs1 : r.usesRs1 <;> cases hrs2 : r.usesRs2 <;>
      simp [TableRow.regsIn, hrd, hrs1, hrs2]
  rw [hregs]
  rfl

/-- The instruction has this mnemonic, needs this extension, uses these registers and is this word. -/
structure Instr.Reads (i : Instr) (mnemonic : String) (needs : Needs) (regs : List RegNum) (w : InstrWord) : Prop where
  mnemonic_eq : i.mnemonic = mnemonic
  needs_eq : i.needs = needs
  regs_eq : i.regs = regs
  encode_eq : encode .imm12 i = w

/-- Every word that matches the row is an instruction as the row describes it. -/
def TableRow.Covered (r : TableRow) : Prop :=
  ∀ w, w &&& r.mask = r.value → ∃ i : Instr, i.Reads r.mnemonic r.needs (r.regsIn w) w

/-- A field on which the mask is all ones is the row's. -/
theorem extractLsb'_eq_of_masked {w mask value : InstrWord} (h : w &&& mask = value) {start len : Nat}
    (hmask : mask.extractLsb' start len = BitVec.allOnes len) :
    w.extractLsb' start len = value.extractLsb' start len := by
  rw [← h, BitVec.extractLsb'_and, hmask, BitVec.and_allOnes]

section formats

variable {m : String} {n : Needs} {v : InstrWord}

theorem TableRow.Covered.dss (mk : RegNum → RegNum → RegNum → Instr)
    (h : ∀ rd rs1 rs2, (mk rd rs1 rs2).Reads m n [rd, rs1, rs2] (encDss (fOpcode v) rd rs1 (fFn4 v) rs2 (fFn7 v))) :
    TableRow.Covered ⟨m, 0xFC00F07F, v, n, true, true, true⟩ := by
  intro w (hw : w &&& 0xFC00F07F = v)
  have hword : encDss (fOpcode v) (fRd w) (fRs1 w) (fFn4 v) (fRs2 w) (fFn7 v) = w :=
    encDss_of_fields (extractLsb'_eq_of_masked hw (by decide)) (extractLsb'_eq_of_masked hw (by decide))
      (extractLsb'_eq_of_masked hw (by decide))
  exact ⟨_, hword ▸ h (fRd w) (fRs1 w) (fRs2 w)⟩

theorem TableRow.Covered.dsi (mk : RegNum → RegNum → Imm12 → Instr)
    (h : ∀ rd rs1 imm, (mk rd rs1 imm).Reads m n [rd, rs1] (encDsi (fOpcode v) rd rs1 (fFn4 v) imm)) :
    TableRow.Covered ⟨m, 0xFC00F000, v, n, true, true, false⟩ := by
  intro w (hw : w &&& 0xFC00F000 = v)
  have hword : encDsi (fOpcode v) (fRd w) (fRs1 w) (fFn4 v) (fImmDsi w) = w :=
    encDsi_of_fields (extractLsb'_eq_of_masked hw (by decide)) (extractLsb'_eq_of_masked hw (by decide))
  exact ⟨_, hword ▸ h (fRd w) (fRs1 w) (fImmDsi w)⟩

theorem TableRow.Covered.ssi (mk : RegNum → RegNum → Imm12 → Instr)
    (h : ∀ rs1 rs2 imm, (mk rs1 rs2 imm).Reads m n [rs1, rs2] (encSsi (fOpcode v) rs1 (fFn4 v) rs2 imm)) :
    TableRow.Covered ⟨m, 0xFC00F000, v, n, false, true, true⟩ := by
  intro w (hw : w &&& 0xFC00F000 = v)
  have hword : encSsi (fOpcode v) (fRs1 w) (fFn4 v) (fRs2 w) (fImmSsi w) = w :=
    encSsi_of_fields (extractLsb'_eq_of_masked hw (by decide)) (extractLsb'_eq_of_masked hw (by decide))
  exact ⟨_, hword ▸ h (fRs1 w) (fRs2 w) (fImmSsi w)⟩

theorem TableRow.Covered.di (mk : RegNum → Imm21 → Instr)
    (h : ∀ rd imm, (mk rd imm).Reads m n [rd] (encDi (fOpcode v) rd imm)) :
    TableRow.Covered ⟨m, 0xFC000000, v, n, true, false, false⟩ := by
  intro w (hw : w &&& 0xFC000000 = v)
  have hword : encDi (fOpcode v) (fRd w) (fImmDi w) = w :=
    encDi_of_fields (extractLsb'_eq_of_masked hw (by decide))
  exact ⟨_, hword ▸ h (fRd w) (fImmDi w)⟩

/-- The row of CSRW fixes `rd`. -/
theorem TableRow.Covered.csrw (mk : RegNum → CsrNum → Instr)
    (h : ∀ rs1 csr, (mk rs1 csr).Reads m n [rs1] (encDsi (fOpcode v) (fRd v) rs1 (fFn4 v) csr)) :
    TableRow.Covered ⟨m, 0xFFE0F000, v, n, false, true, false⟩ := by
  intro w (hw : w &&& 0xFFE0F000 = v)
  have hrd : fRd w = fRd v := extractLsb'_eq_of_masked hw (by decide)
  have hword : encDsi (fOpcode v) (fRd w) (fRs1 w) (fFn4 v) (fImmDsi w) = w :=
    encDsi_of_fields (extractLsb'_eq_of_masked hw (by decide)) (extractLsb'_eq_of_masked hw (by decide))
  rw [hrd] at hword
  exact ⟨_, hword ▸ h (fRs1 w) (fImmDsi w)⟩

/-- The row of CSRR fixes `rs1`. -/
theorem TableRow.Covered.csrr (mk : RegNum → CsrNum → Instr)
    (h : ∀ rd csr, (mk rd csr).Reads m n [rd] (encDsi (fOpcode v) rd (fRs1 v) (fFn4 v) csr)) :
    TableRow.Covered ⟨m, 0xFC1FF000, v, n, true, false, false⟩ := by
  intro w (hw : w &&& 0xFC1FF000 = v)
  have hrs1 : fRs1 w = fRs1 v := extractLsb'_eq_of_masked hw (by decide)
  have hword : encDsi (fOpcode v) (fRd w) (fRs1 w) (fFn4 v) (fImmDsi w) = w :=
    encDsi_of_fields (extractLsb'_eq_of_masked hw (by decide)) (extractLsb'_eq_of_masked hw (by decide))
  rw [hrs1] at hword
  exact ⟨_, hword ▸ h (fRd w) (fImmDsi w)⟩

/-- A row that fixes all 32 bits, as those of SYSCALL and SYSRET, holds of its value alone. -/
theorem TableRow.Covered.word (i : Instr) (h : i.Reads m n [] v) :
    TableRow.Covered ⟨m, 0xFFFFFFFF, v, n, false, false, false⟩ := by
  intro w (hw : w &&& 0xFFFFFFFF = v)
  have hv : w = v := BitVec.and_allOnes.symm.trans hw
  exact ⟨i, hv ▸ h⟩

end formats

/-! The rows, ten at a time as the table lists them. -/

theorem opcodeRows0_covered : ∀ r ∈ opcodeRows0, r.Covered := by
  simp only [opcodeRows0, List.forall_mem_cons]
  refine ⟨.dss .add ?_, .dss .sub ?_, .dss .and ?_, .dss .or ?_, .dss .xor ?_,
    .dss .shr ?_, .dss .asr ?_, .dss .shl ?_, .dss .cch ?_, .dss .bch ?_,
    List.forall_mem_nil _⟩ <;> intros <;> exact ⟨rfl, rfl, rfl, rfl⟩

theorem opcodeRows1_covered : ∀ r ∈ opcodeRows1, r.Covered := by
  simp only [opcodeRows1, List.forall_mem_cons]
  refine ⟨.dsi .addi ?_, .dsi .andi ?_, .dsi .ori ?_, .dsi .xori ?_,
    .dsi .shri ?_, .dsi .asri ?_, .dsi .shli ?_, .dsi .cchi ?_, .dsi .bchi ?_,
    .di .lui ?_, List.forall_mem_nil _⟩ <;> intros <;> exact ⟨rfl, rfl, rfl, rfl⟩

theorem opcodeRows2_covered : ∀ r ∈ opcodeRows2, r.Covered := by
  simp only [opcodeRows2, List.forall_mem_cons]
  refine ⟨.ssi .stb ?_, .ssi .stw ?_, .ssi .std ?_, .ssi .stq ?_,
    .dsi .ldb ?_, .dsi .ldw ?_, .dsi .ldd ?_, .dsi .ldq ?_, .dsi .ldsb ?_,
    .dsi .ldsw ?_, List.forall_mem_nil _⟩ <;> intros <;> exact ⟨rfl, rfl, rfl, rfl⟩

theorem opcodeRows3_covered : ∀ r ∈ opcodeRows3, r.Covered := by
  simp only [opcodeRows3, List.forall_mem_cons]
  refine ⟨.dsi .ldsd ?_, .di .jal ?_, .dsi .jalr ?_, .ssi .jeq ?_,
    .ssi .jlt ?_, .ssi .jslt ?_, .ssi .jne ?_, .ssi .jge ?_, .ssi .jsge ?_,
    .word .syscall ?_, List.forall_mem_nil _⟩ <;> intros <;> exact ⟨rfl, rfl, rfl, rfl⟩

theorem opcodeRows4_covered : ∀ r ∈ opcodeRows4, r.Covered := by
  simp only [opcodeRows4, List.forall_mem_cons]
  refine ⟨.word .sysret ?_, .csrw .csrw ?_, .csrr .csrr ?_, .dss .mul ?_,
    .dss .smul ?_, .dss .mulh ?_, .dss .smulh ?_, .dss .div ?_, .dss .sdiv ?_,
    .dss .mod ?_, List.forall_mem_nil _⟩ <;> intros <;> exact ⟨rfl, rfl, rfl, rfl⟩

theorem opcodeRows5_covered : ∀ r ∈ opcodeRows5, r.Covered := by
  simp only [opcodeRows5, List.forall_mem_cons]
  exact ⟨.dss .smod fun _ _ _ => ⟨rfl, rfl, rfl, rfl⟩, List.forall_mem_nil _⟩

theorem opcodeTable_covered : ∀ r ∈ opcodeTable, r.Covered := by
  simp only [opcodeTable, List.forall_mem_append]
  exact ⟨⟨⟨⟨⟨opcodeRows0_covered, opcodeRows1_covered⟩, opcodeRows2_covered⟩, opcodeRows3_covered⟩,
    opcodeRows4_covered⟩, opcodeRows5_covered⟩

/-- A row with the mask and what it leaves of the word. -/
theorem exists_row_of_masked {w mask value : InstrWord} (h : w &&& mask = value)
    (hrow : ∃ r ∈ opcodeTable, r.mask = mask ∧ r.value = value) : ∃ r ∈ opcodeTable, w &&& r.mask = r.value := by
  obtain ⟨r, hr, rfl, rfl⟩ := hrow
  exact ⟨r, hr, h⟩

/-- The encoding of every instruction matches a row: the mask of its format leaves a row's value. -/
theorem encode_matches_row (i : Instr) : ∃ r ∈ opcodeTable, encode .imm12 i &&& r.mask = r.value := by
  cases i
  case add | sub | and | or | xor | shr | asr | shl | cch | bch | mul | smul | mulh | smulh | div | sdiv | mod | smod =>
    exact exists_row_of_masked (encDss_masked ..) (by decide)
  case addi | andi | ori | xori | shri | asri | shli | cchi | bchi | ldb | ldw | ldd | ldq | ldsb | ldsw | ldsd
      | jalr =>
    exact exists_row_of_masked (encDsi_masked ..) (by decide)
  case stb | stw | std | stq | jeq | jlt | jslt | jne | jge | jsge =>
    exact exists_row_of_masked (encSsi_masked ..) (by decide)
  case lui | jal => exact exists_row_of_masked (encDi_masked ..) (by decide)
  case csrw => exact exists_row_of_masked (encDsi_masked_csrw ..) (by decide)
  case csrr => exact exists_row_of_masked (encDsi_masked_csrr ..) (by decide)
  case syscall | sysret => exact exists_row_of_masked BitVec.and_allOnes (by decide)

/-- Where an instruction reads a word as a row describes it, the row holds exactly where the word decodes to it. -/
theorem Instr.Reads.decode_iff {i : Instr} {r : TableRow} {c : Config} {w : InstrWord}
    (h : i.Reads r.mnemonic r.needs (r.regsIn w) w) (hmatch : w &&& r.mask = r.value) (hcsr : c.csrField = .imm12) :
    decode c w = .ok i ↔ r.holds c w := by
  rw [decode_eq_ok_iff, TableRow.holds_iff, hcsr, ← h.needs_eq, ← h.regs_eq]
  simp [hmatch, h.encode_eq, Instr.wellFormed, Instr.regsExist, hcsr, csrEncodable_imm12]

/-- Settles O3: from the word's instruction to a row its encoding matches, and from a row to the instruction that
covers it. -/
theorem decoderAgreesWithOpcodeTable : Obligations.DecoderAgreesWithOpcodeTable := by
  intro c w hcsr
  refine ⟨fun i hdecode => ?_, fun r hr hholds => ?_⟩
  · obtain ⟨hw, -⟩ := decode_eq_ok_iff.mp hdecode
    rw [hcsr] at hw
    obtain ⟨r, hr, hmatch⟩ := encode_matches_row i
    rw [hw] at hmatch
    obtain ⟨j, hj⟩ := opcodeTable_covered r hr w hmatch
    have hji : j = i := encode_injective (hj.encode_eq.trans hw.symm)
    subst hji
    exact ⟨r, hr, (hj.decode_iff hmatch hcsr).mp hdecode, hj.mnemonic_eq.symm⟩
  · have ⟨hmatch, _⟩ := hholds
    obtain ⟨i, hi⟩ := opcodeTable_covered r hr w hmatch
    exact ⟨i, (hi.decode_iff hmatch hcsr).mpr hholds, hi.mnemonic_eq⟩

end Sys2Proof

namespace Sys2Proof.Machine

/-! ## A word that is no instruction (30_encoding.md R108, 60_exceptions.md R363) -/

/-- A fetch from ram and rom reads the four bytes in address order. -/
theorem State.fetchBytes_plain {s : State} (h : s.plainMemory s.ip.toNat 4) :
    s.fetchBytes = .ok [s.mem.read s.ip.toNat, s.mem.read (s.ip.toNat + 1), s.mem.read (s.ip.toNat + 2),
      s.mem.read (s.ip.toNat + 3)] := by
  unfold State.fetchBytes
  rw [if_pos ((s.fetchable_iff _ _).mpr h)]
  rfl

theorem decodeBytes_error {c : Config} {b0 b1 b2 b3 : Byte} {rest : List Byte} {e : DecodeError}
    (h : decode c (b0 ++ b1 ++ b2 ++ b3) = .error e) : decodeBytes c (b0 :: b1 :: b2 :: b3 :: rest) = .error e := by
  simp [decodeBytes, h]

/-- Settles O9: the fetch reads the word, and the step stops at the decoder's answer. -/
theorem reservedEncodingFaults : Obligations.ReservedEncodingFaults := by
  intro s e hvalid hpc hplain hdecode
  rw [← State.ip_extractLsb] at hpc
  rw [step, if_neg (by simp [hvalid]), if_neg (not_not.mpr hpc), State.fetchBytes_plain hplain]
  simp only [decodeBytes_error hdecode]

end Sys2Proof.Machine
end

section
/-! # The family of register arithmetic: results, shifts, and what only some instructions do (40_arithmetic.md)

Every arithmetic instruction is a `retire`, so `Computes.of_retire` leaves only its number. The six shifts, register and
immediate forms alike, are brought to one predicate, `Shifts`, and each part of R131 is proved once about it. Which
instructions write memory and which fault is read off the shared operations an instruction ends in. -/

namespace Sys2Proof.Machine

/-! ## Numbers of the results -/

theorem sub_toNat_eq_emod {w : Nat} (a b : BitVec w) :
    (a - b).toNat = (((a.toNat : Int) - b.toNat) % (2 ^ w : Nat)).toNat := by
  have hb := b.isLt
  have hsub : ((2 ^ w - b.toNat + a.toNat : Nat) : Int) = ((a.toNat : Int) - b.toNat) + (2 ^ w : Nat) := by omega
  rw [BitVec.toNat_sub, ← Int.toNat_natCast (_ % _), Int.natCast_mod, hsub, Int.add_emod_right]

theorem State.opWidth_pos (s : State) : 0 < s.opWidth := by
  rcases s.opWidth_eq with hw | hw <;> omega

theorem State.one_toNat (s : State) : (1 : BitVec s.opWidth).toNat = 1 :=
  BitVec.toNat_one s.opWidth_pos

/-- The carry out as a number: CCH and CCHI (40_arithmetic.md R129). -/
theorem State.carryOut_toNat (s : State) (a b : BitVec s.opWidth) :
    (carryOut a b).toNat = if 2 ^ s.opWidth ≤ a.toNat + b.toNat then 1 else 0 := by
  unfold carryOut
  split
  · exact s.one_toNat
  · exact BitVec.toNat_zero

/-- The borrow out as a number: BCH and BCHI (40_arithmetic.md R130). -/
theorem State.borrowOut_toNat (s : State) (a b : BitVec s.opWidth) :
    (borrowOut a b).toNat = if a.toNat < b.toNat then 1 else 0 := by
  unfold borrowOut
  split
  · exact s.one_toNat
  · exact BitVec.toNat_zero

/-- Settles O11: the number of each operation's result. -/
theorem registerArithmeticResults : Obligations.RegisterArithmeticResults := by
  intro s rd rs1 rs2
  refine ⟨.of_retire rfl ?_, .of_retire rfl ?_, .of_retire rfl ?_, .of_retire rfl ?_, .of_retire rfl ?_⟩
  · rw [BitVec.toNat_add, State.src_toNat, State.src_toNat]
  · rw [sub_toNat_eq_emod, State.src_toNat, State.src_toNat, State.wrap]
  · rw [BitVec.toNat_and, State.src_toNat, State.src_toNat]
  · rw [BitVec.toNat_or, State.src_toNat, State.src_toNat]
  · rw [BitVec.toNat_xor, State.src_toNat, State.src_toNat]

/-- Settles O15: the carry and the borrow of the two operands. -/
theorem carryAndBorrowChecks : Obligations.CarryAndBorrowChecks := by
  intro s rd rs1 rs2
  refine ⟨.of_retire rfl ?_, .of_retire rfl ?_⟩
  · rw [State.carryOut_toNat, State.src_toNat, State.src_toNat]
  · rw [State.borrowOut_toNat, State.src_toNat, State.src_toNat]

/-! ## Shifts (40_arithmetic.md R126 to R128, R131) -/

/-- The number an exact shift of `x[r]` by `n` gives (40_arithmetic.md R126 to R128). -/
def State.shiftNat (s : State) (op : ShiftOp) (r : RegNum) (n : Nat) : Nat :=
  match op with
  | .shr => s.u r / 2 ^ n
  | .asr => s.wrap (s.sgn r / (2 ^ n : Nat))
  | .shl => s.u r * 2 ^ n % 2 ^ s.opWidth

theorem State.shiftExact_src_toNat (s : State) (op : ShiftOp) (r : RegNum) (n : Nat) :
    (shiftExact op (s.src r) n).toNat = s.shiftNat op r n := by
  cases op with
  | shr => rw [shiftExact, State.shiftNat, BitVec.toNat_ushiftRight, Nat.shiftRight_eq_div_pow, State.src_toNat]
  | asr =>
    rw [shiftExact, State.shiftNat, State.wrap, BitVec.sshiftRight, BitVec.toNat_ofInt, State.src_toInt,
      Int.shiftRight_eq_div_pow]
  | shl => rw [shiftExact, State.shiftNat, BitVec.toNat_shiftLeft, Nat.shiftLeft_eq, State.src_toNat]

/-- The number a shift of `x[r]` gives under `SHIFT_OVER = full`: copies of the sign bit for ASR, else 0
(40_arithmetic.md R131). -/
def State.shiftFullNat (s : State) (op : ShiftOp) (r : RegNum) : Nat :=
  match op with
  | .shr | .shl => 0
  | .asr => if s.sgn r < 0 then 2 ^ s.opWidth - 1 else 0

theorem State.shiftFull_src_toNat (s : State) (op : ShiftOp) (r : RegNum) :
    (shiftFull op (s.src r)).toNat = s.shiftFullNat op r := by
  cases op with
  | shr | shl => exact BitVec.toNat_zero
  | asr =>
    simp only [shiftFull, State.shiftFullNat, BitVec.msb_eq_toInt, State.src_toInt, decide_eq_true_eq]
    split
    · exact BitVec.toNat_allOnes
    · exact BitVec.toNat_zero

/-- The instruction `i` shifts `x[rs1]` by the amount `n` into `x[rd]`. -/
def Shifts (i : Instr) (s : State) (op : ShiftOp) (rd rs1 : RegNum) (n : Nat) : Prop :=
  ∃ b : BitVec s.opWidth, b.toNat = n ∧ exec i s = s.retire i rd (shift s.cfg op (s.src rs1) b)

section
variable (s : State) (rd rs1 rs2 : RegNum) (imm : Imm12)

theorem shr_shifts : Shifts (.shr rd rs1 rs2) s .shr rd rs1 (s.u rs2) := ⟨_, s.src_toNat rs2, rfl⟩
theorem asr_shifts : Shifts (.asr rd rs1 rs2) s .asr rd rs1 (s.u rs2) := ⟨_, s.src_toNat rs2, rfl⟩
theorem shl_shifts : Shifts (.shl rd rs1 rs2) s .shl rd rs1 (s.u rs2) := ⟨_, s.src_toNat rs2, rfl⟩
theorem shri_shifts : Shifts (.shri rd rs1 imm) s .shr rd rs1 (s.immU imm) := ⟨_, s.immW_toNat imm, rfl⟩
theorem asri_shifts : Shifts (.asri rd rs1 imm) s .asr rd rs1 (s.immU imm) := ⟨_, s.immW_toNat imm, rfl⟩
theorem shli_shifts : Shifts (.shli rd rs1 imm) s .shl rd rs1 (s.immU imm) := ⟨_, s.immW_toNat imm, rfl⟩

end

section
variable {i : Instr} {s : State} {op : ShiftOp} {rd rs1 : RegNum} {n : Nat}

/-- Below the width a shift is exact. -/
theorem Shifts.below (h : Shifts i s op rd rs1 n) (hn : n < s.opWidth) : Computes i s rd (s.shiftNat op rs1 n) := by
  obtain ⟨b, rfl, hexec⟩ := h
  refine .of_retire hexec ?_
  rw [shift, if_pos hn, State.shiftExact_src_toNat]

/-- At the width or above it a shift is `SHIFT_OVER`. -/
theorem Shifts.over (h : Shifts i s op rd rs1 n) (hn : s.opWidth ≤ n) :
    Computes i s rd (shiftOver s.cfg op (s.src rs1) n).toNat := by
  obtain ⟨b, rfl, hexec⟩ := h
  refine .of_retire hexec ?_
  rw [shift, if_neg (not_lt.mpr hn)]

theorem Shifts.over_full (h : Shifts i s op rd rs1 n) (hn : s.opWidth ≤ n) (hc : s.cfg.shiftOver = .full) :
    Computes i s rd (s.shiftFullNat op rs1) := by
  simpa only [shiftOver, hc, State.shiftFull_src_toNat] using h.over hn

theorem Shifts.over_masked (h : Shifts i s op rd rs1 n) (hn : s.opWidth ≤ n) (hc : s.cfg.shiftOver = .masked) :
    Computes i s rd (s.shiftNat op rs1 (n % s.opWidth)) := by
  simpa only [shiftOver, hc, State.shiftExact_src_toNat] using h.over hn

/-- The free value of an over-width shift as a function of numbers (40_arithmetic.md R131; log entry 8). -/
def freeShiftNat (op : ShiftOp) (w a n : Nat) : Nat := (Config.freeShift op w (BitVec.ofNat w a) n).toNat

theorem Shifts.over_any (h : Shifts i s op rd rs1 n) (hn : s.opWidth ≤ n) (hc : s.cfg.shiftOver = .any) :
    Computes i s rd (freeShiftNat op s.opWidth (s.u rs1) n) := by
  have hsrc : BitVec.ofNat s.opWidth (s.u rs1) = s.src rs1 := by
    rw [← State.src_toNat, BitVec.ofNat_toNat, BitVec.setWidth_eq]
  simpa only [shiftOver, hc, freeShiftNat, hsrc] using h.over hn

end

/-- The two named candidates for three instructions that shift by the same amount: `full`, then `masked`. -/
theorem Shifts.over_candidates {i j k : Instr} {s : State} {rd rs1 : RegNum} {n : Nat}
    (hr : Shifts i s .shr rd rs1 n) (ha : Shifts j s .asr rd rs1 n) (hl : Shifts k s .shl rd rs1 n)
    (hn : s.opWidth ≤ n) :
    (s.cfg.shiftOver = .full →
      Computes i s rd (s.shiftFullNat .shr rs1) ∧ Computes j s rd (s.shiftFullNat .asr rs1) ∧
        Computes k s rd (s.shiftFullNat .shl rs1)) ∧
    (s.cfg.shiftOver = .masked →
      Computes i s rd (s.shiftNat .shr rs1 (n % s.opWidth)) ∧ Computes j s rd (s.shiftNat .asr rs1 (n % s.opWidth)) ∧
        Computes k s rd (s.shiftNat .shl rs1 (n % s.opWidth))) :=
  ⟨fun hc => ⟨hr.over_full hn hc, ha.over_full hn hc, hl.over_full hn hc⟩,
    fun hc => ⟨hr.over_masked hn hc, ha.over_masked hn hc, hl.over_masked hn hc⟩⟩

/-- Settles O12: each of the three register forms shifts by its operand, and below the width a shift is exact. -/
theorem shiftsBelowTheWidth : Obligations.ShiftsBelowTheWidth := by
  intro s rd rs1 rs2 hn
  exact ⟨(shr_shifts s rd rs1 rs2).below hn, (asr_shifts s rd rs1 rs2).below hn, (shl_shifts s rd rs1 rs2).below hn⟩

/-- Settles O13: the function is the free value, the same for both forms. -/
theorem overWidthShiftsAreAFunctionOfTheirOperands : Obligations.OverWidthShiftsAreAFunctionOfTheirOperands := by
  refine ⟨freeShiftNat, fun s rd rs1 rs2 imm hc => ⟨fun hn => ?_, fun hn => ?_⟩⟩
  · exact ⟨(shr_shifts s rd rs1 rs2).over_any hn hc, (asr_shifts s rd rs1 rs2).over_any hn hc,
      (shl_shifts s rd rs1 rs2).over_any hn hc⟩
  · exact ⟨(shri_shifts s rd rs1 imm).over_any hn hc, (asri_shifts s rd rs1 imm).over_any hn hc,
      (shli_shifts s rd rs1 imm).over_any hn hc⟩

/-- Settles O14: the candidates once for the register forms and once for the immediate forms. -/
theorem shiftOverCandidates : Obligations.ShiftOverCandidates := by
  intro s rd rs1 rs2 imm
  exact ⟨Shifts.over_candidates (shr_shifts s rd rs1 rs2) (asr_shifts s rd rs1 rs2) (shl_shifts s rd rs1 rs2),
    Shifts.over_candidates (shri_shifts s rd rs1 imm) (asri_shifts s rd rs1 imm) (shli_shifts s rd rs1 imm)⟩

/-! ## Only the stores write memory (20_memory.md R65) -/

/-- Settles O34: of the effects an instruction can have only `stores` writes memory, and it is a store's. -/
theorem onlyStoresChangeMemory : Obligations.OnlyStoresChangeMemory := by
  intro s t i hi hexec
  cases exec_effect hexec with
  | stores rs1 rs2 imm n hs _ => simp [Instr.isStore_eq, hs] at hi
  | writes | jumps | loads | systemCall | systemReturn | csrWrite => simp

/-! ## Which instructions fault (60_exceptions.md R341) -/

/-- The faults the rules give an instruction (42_load_store.md R170; 45_system.md R253, R254; 10_state.md R42). -/
def faultsOf : Instr → List Fault
  | .ldb _ _ _ | .ldw _ _ _ | .ldd _ _ _ | .ldq _ _ _ | .ldsb _ _ _ | .ldsw _ _ _ | .ldsd _ _ _ => [.unmappedAccess]
  | .stb _ _ _ | .stw _ _ _ | .std _ _ _ | .stq _ _ _ => [.unmappedAccess]
  | .sysret => [.sysretInUserMode, .reservedCsrValue]
  | .csrw _ _ => [.reservedCsr, .htidWrite, .reservedCsrValue]
  | .csrr _ _ => [.reservedCsr]
  | _ => []

/-- The answer is no refusal, and a fault only from the list. -/
def FaultsOnly (faults : List Fault) : Result → Prop
  | .next _ => True
  | .fault f => f ∈ faults
  | .refused _ => False

theorem State.loadTo_faultsOnly (s : State) (rd rs1 : RegNum) (imm : Imm12) (n : Nat)
    (ext : BitVec (8 * n) → Word64) : FaultsOnly [.unmappedAccess] (s.loadTo rd rs1 imm n ext) := by
  unfold State.loadTo
  rcases s.load_cases (s.accessAddr rs1 imm n) n with ⟨v, cells, hload, -⟩ | ⟨hload, -⟩ <;> rw [hload]
  · trivial
  · exact List.mem_singleton_self _

theorem State.storeFrom_faultsOnly (s : State) (rs1 rs2 : RegNum) (imm : Imm12) (n : Nat) :
    FaultsOnly [.unmappedAccess] (s.storeFrom rs1 rs2 imm n) := by
  unfold State.storeFrom
  rcases s.store_cases (s.accessAddr rs1 imm n) n (s.storeData rs2 n) with ⟨hstore, -⟩ | ⟨hstore, -⟩ <;> rw [hstore]
  · trivial
  · exact List.mem_singleton_self _

theorem execSysret_faultsOnly (s : State) : FaultsOnly [.sysretInUserMode, .reservedCsrValue] (execSysret s) := by
  unfold execSysret
  split
  · split
    · simp [FaultsOnly]
    · trivial
  · simp [FaultsOnly]

theorem State.csrwFault_mem {s : State} {n : Nat} {v : Word64} {f : Fault} (h : s.csrwFault n v = some f) :
    f ∈ [.reservedCsr, .htidWrite, .reservedCsrValue] := by
  unfold State.csrwFault at h
  split_ifs at h <;> cases h <;> decide

theorem execCsrw_faultsOnly (rs1 : RegNum) (n : CsrNum) (s : State) :
    FaultsOnly [.reservedCsr, .htidWrite, .reservedCsrValue] (execCsrw rs1 n s) := by
  unfold execCsrw
  dsimp only
  split
  · split
    · rename_i hf
      exact State.csrwFault_mem hf
    · trivial
  · trivial

theorem execCsrr_faultsOnly (rd : RegNum) (n : CsrNum) (s : State) : FaultsOnly [.reservedCsr] (execCsrr rd n s) := by
  unfold execCsrr
  split
  · split
    · exact List.mem_singleton_self _
    · trivial
  · trivial

/-- Every instruction has a meaning, and faults only as its rule says. -/
theorem exec_faultsOnly (i : Instr) (s : State) : FaultsOnly (faultsOf i) (exec i s) := by
  cases i
  case ldb | ldw | ldd | ldq | ldsb | ldsw | ldsd => exact s.loadTo_faultsOnly _ _ _ _ _
  case stb | stw | std | stq => exact s.storeFrom_faultsOnly _ _ _ _
  case sysret => exact execSysret_faultsOnly s
  case csrw rs1 n => exact execCsrw_faultsOnly rs1 n s
  case csrr rd n => exact execCsrr_faultsOnly rd n s
  -- The other instructions complete: each is a `retire`, a `jumpLink`, a `condJump` or the trap of SYSCALL.
  all_goals trivial

theorem exec_ne_refused (i : Instr) (s : State) (r : Refusal) : exec i s ≠ .refused r := by
  intro hr
  have hkinds := exec_faultsOnly i s
  rwa [hr] at hkinds

theorem exec_fault_mem {i : Instr} {s : State} {f : Fault} (hf : exec i s = .fault f) : f ∈ faultsOf i := by
  have hkinds := exec_faultsOnly i s
  rwa [hf] at hkinds

/-- Settles O48: by the instruction, from the list of its faults. -/
theorem faultsOnlyWhereTheRulesSay : Obligations.FaultsOnlyWhereTheRulesSay := by
  intro s i
  refine ⟨exec_ne_refused i s, fun f hf => ?_⟩
  have hmem := exec_fault_mem hf
  cases i
  case ldb | ldw | ldd | ldq | ldsb | ldsw | ldsd => exact .inl ⟨.inl rfl, List.mem_singleton.mp hmem⟩
  case stb | stw | std | stq => exact .inl ⟨.inr rfl, List.mem_singleton.mp hmem⟩
  case sysret =>
    have hmem : f ∈ [.sysretInUserMode, .reservedCsrValue] := hmem
    exact .inr (.inl ⟨rfl, by simpa using hmem⟩)
  case csrw rs1 n =>
    have hmem : f ∈ [.reservedCsr, .htidWrite, .reservedCsrValue] := hmem
    exact .inr (.inr (.inl ⟨rs1, n, rfl, by simpa using hmem⟩))
  case csrr rd n => exact .inr (.inr (.inr ⟨rd, n, rfl, List.mem_singleton.mp hmem⟩))
  all_goals cases hmem

end Sys2Proof.Machine
end

section
/-! # The family of immediate arithmetic: results, shifts below the width, and LUI (41_arithmetic_imm.md)

The second operand is the sign-extended immediate, whose number is `State.immW_toNat`; the rest is the register forms'
argument: `Computes.of_retire` leaves the number of the result, and `Shifts.below` says what a shift computes. -/

namespace Sys2Proof.Machine

/-- Settles O16: the number of each operation's result, with the immediate as the second operand. -/
theorem immediateArithmeticResults : Obligations.ImmediateArithmeticResults := by
  intro s rd rs1 imm
  refine ⟨.of_retire rfl ?addi, .of_retire rfl ?andi, .of_retire rfl ?ori, .of_retire rfl ?xori, .of_retire rfl ?cchi,
    .of_retire rfl ?bchi⟩
  case addi => rw [BitVec.toNat_add, State.src_toNat, State.immW_toNat]
  case andi => rw [BitVec.toNat_and, State.src_toNat, State.immW_toNat]
  case ori => rw [BitVec.toNat_or, State.src_toNat, State.immW_toNat]
  case xori => rw [BitVec.toNat_xor, State.src_toNat, State.immW_toNat]
  case cchi => rw [State.carryOut_toNat, State.src_toNat, State.immW_toNat]
  case bchi => rw [State.borrowOut_toNat, State.src_toNat, State.immW_toNat]

/-- Settles O17: each of the three immediate forms shifts by its immediate, and below the width a shift is exact. -/
theorem immediateShiftsBelowTheWidth : Obligations.ImmediateShiftsBelowTheWidth := by
  intro s rd rs1 imm hn
  exact ⟨(shri_shifts s rd rs1 imm).below hn, (asri_shifts s rd rs1 imm).below hn, (shli_shifts s rd rs1 imm).below hn⟩

/-- Settles O18: a left shift by 11 multiplies by `2^11`. -/
theorem luiResult : Obligations.LuiResult := by
  intro s rd imm
  refine .of_retire rfl ?_
  rw [BitVec.toNat_shiftLeft, Nat.shiftLeft_eq, State.immW_toNat]

end Sys2Proof.Machine
end

section
/-! # The family of loads and stores: results and frames (42_load_store.md, 46_srm64.md R280 to R282)

`loads_plain` and `stores_ram` say once, for every size, what a load from ram or rom and a store to ram do and leave
unchanged; each instruction is an instance of one of them. -/

namespace Sys2Proof.Machine

/-- A load of `n` bytes of ram or rom: `load` leaves the state as it was, so that only `x[rd]` and `pc` change. -/
theorem loads_plain {i : Instr} {s : State} {rd rs1 : RegNum} {imm : Imm12} {n : Nat} (hd : i.loadDest = some rd)
    (ha : i.access = some (rs1, imm, n)) (h : s.plainMemory (s.eaNat rs1 imm n) n) :
    Loads i s rd (i.loadValue n (s.memNat (s.eaNat rs1 imm n) n)) := by
  obtain ⟨ext, hexec, hext⟩ := exec_load hd ha
  have hexec := hexec s
  rw [State.loadTo, s.accessAddr_eq rs1 imm n, s.load_plain _ n h] at hexec
  have hvalue := hext (BitVec.ofNat (8 * n) (s.memNat (s.eaNat rs1 imm n) n))
  rw [BitVec.toNat_ofNat, Nat.mod_eq_of_lt (s.memNat_lt _ n)] at hvalue
  refine ⟨_, hexec, ?_, ?_, by simp [SameCsrs], by simp [SamePlatform], fun a => by simp, by simp⟩
  · rw [← hvalue]
    exact State.setReg_regLoaded rfl rfl rd _
  · rw [State.setPc_pc, State.toNat_setWidth64, State.seqPc_toNat]

/-- A store of `n` bytes to ram: what `store` does to memory, and then only `pc` changes. -/
theorem stores_ram {i : Instr} {s : State} {rs1 rs2 : RegNum} {imm : Imm12} {n : Nat} (hs : i.storeSource = some rs2)
    (ha : i.access = some (rs1, imm, n)) (h : s.ramOnly (s.accessAddr rs1 imm n) n) :
    Stores i s rs2 (s.accessAddr rs1 imm n) n := by
  obtain ⟨u, hstore, rfl, hbytes, houtside⟩ := s.store_ram (s.accessAddr rs1 imm n) n (s.storeData rs2 n) h
  have hexec := exec_store hs ha s
  rw [State.storeFrom, hstore] at hexec
  have hdata : (s.storeData rs2 n).toNat = (s.reg rs2).toNat % 2 ^ (8 * n) := by
    rw [State.storeData_eq, BitVec.toNat_setWidth]
  refine ⟨_, hexec, ?_, houtside, fun r => State.reg_congr rfl r, ?_, by simp [SameCsrs], by simp [SamePlatform],
    by simp⟩
  · rw [← hdata, ← hbytes]
    exact State.memNat_congr _ n fun _ _ => rfl
  · rw [State.setPc_pc, State.toNat_setWidth64, State.seqPc_toNat]

/-- Settles O27: each load is `loads_plain` of its size; LDSB, LDSW and LDSD with their width `8 * n` evaluated. -/
theorem loadResults : Obligations.LoadResults := by
  intro s rd rs1 imm
  refine ⟨fun h => ⟨?ldb, ?ldsb⟩, fun h => ⟨?ldw, ?ldsw⟩, fun h => ⟨?ldd, ?ldsd⟩, fun h => ?ldq⟩
  case ldb | ldw | ldd | ldq => exact loads_plain rfl rfl h
  case ldsb => simpa only [Instr.loadValue, Nat.reduceMul] using loads_plain (i := .ldsb rd rs1 imm) rfl rfl h
  case ldsw => simpa only [Instr.loadValue, Nat.reduceMul] using loads_plain (i := .ldsw rd rs1 imm) rfl rfl h
  case ldsd => simpa only [Instr.loadValue, Nat.reduceMul] using loads_plain (i := .ldsd rd rs1 imm) rfl rfl h

/-- Settles O30: each of the four sizes by `stores_ram`. -/
theorem storeResults : Obligations.StoreResults := by
  intro s rs1 rs2 imm
  exact ⟨stores_ram rfl rfl, stores_ram rfl rfl, stores_ram rfl rfl, stores_ram rfl rfl⟩

end Sys2Proof.Machine
end

section
/-! # The family of jumps: link, condition, target and frame (43_jumps.md)

JAL and JALR are a `jumpLink` to their target; the six conditional jumps are a `condJump` under their condition, in two
groups: JEQ, JLT and JSLT jump where a comparison holds, JNE, JGE and JSGE where it fails. Operands and target are read
before the one write, so `rd = rs1` needs no case of its own (00_scope.md R12). -/

namespace Sys2Proof.Machine

/-! ## Conditions of the conditional jumps as numbers (43_jumps.md R184 to R186) -/

theorem State.src_eq_iff (s : State) (r1 r2 : RegNum) : s.src r1 = s.src r2 ↔ s.u r1 = s.u r2 := by
  rw [← BitVec.toNat_inj, State.src_toNat, State.src_toNat]

theorem State.unsignedLess_src_iff (s : State) (r1 r2 : RegNum) :
    unsignedLess (s.src r1) (s.src r2) = true ↔ s.u r1 < s.u r2 := by
  rw [unsignedLess, decide_eq_true_iff, State.src_toNat, State.src_toNat]

theorem State.signedLess_src_iff (s : State) (r1 r2 : RegNum) :
    signedLess (s.src r1) (s.src r2) = true ↔ s.sgn r1 < s.sgn r2 := by
  rw [signedLess, decide_eq_true_iff, State.src_toInt, State.src_toInt]

/-! ## How a jump ends -/

/-- An instruction whose meaning is `jumpLink i rd target` writes the link `pc + 4` and goes on at the number of
`target`. -/
theorem CompletesWriting.of_jumpLink {i : Instr} {s : State} {rd : RegNum} {target : BitVec s.opWidth} {n : Nat}
    (h : exec i s = s.jumpLink i rd target) (hn : target.toNat = n) : CompletesWriting i s rd s.seqNat n := by
  subst hn
  obtain ⟨t, ht, rest⟩ := s.jumpLink_spec i rd target
  exact ⟨t, h.trans ht, rest⟩

/-- An instruction whose meaning is a `condJump` goes to its target where the condition `p` it tests holds, else to
`pc + 4` (43_jumps.md R183). -/
theorem Jumps.of_condJump {i : Instr} {s : State} {taken : Bool} {imm : Imm12} {p : Prop} [Decidable p]
    (h : exec i s = s.condJump taken imm) (hp : taken = true ↔ p) :
    Jumps i s (if p then (s.pc.toNat + s.immU imm) % 2 ^ s.opWidth else s.seqNat) := by
  obtain ⟨hpc, frame⟩ := s.setPc_spec (if taken then s.relTarget imm else s.seqPc)
  refine ⟨_, h, hpc.trans ?_, frame⟩
  simp only [hp]
  split
  · exact s.relTarget_toNat imm
  · exact s.seqPc_toNat

/-- The same where the condition tested is the failure of `p`. -/
theorem Jumps.of_condJump_not {i : Instr} {s : State} {taken : Bool} {imm : Imm12} {p : Prop} [Decidable p]
    (h : exec i s = s.condJump (!taken) imm) (hp : taken = true ↔ p) :
    Jumps i s (if p then s.seqNat else (s.pc.toNat + s.immU imm) % 2 ^ s.opWidth) := by
  have hnot : (!taken) = true ↔ ¬ p := by rw [Bool.not_eq_true', ← Bool.not_eq_true, hp]
  rw [← ite_not]
  exact Jumps.of_condJump h hnot

/-! ## The statements -/

/-- Settles O35: the number of each target. -/
theorem jumpAndLinkResults : Obligations.JumpAndLinkResults := by
  intro s rd rs1 off imm
  refine ⟨.of_jumpLink rfl ?jal, .of_jumpLink rfl ?jalr⟩
  case jal => exact s.relTarget_toNat off
  case jalr => rw [BitVec.toNat_add, State.src_toNat, State.immW_toNat]

/-- Settles O36: the condition of each jump, tested as it is by the first three and negated by the others. -/
theorem conditionalJumpResults : Obligations.ConditionalJumpResults := by
  intro s rs1 rs2 imm
  have heq : decide (s.src rs1 = s.src rs2) = true ↔ s.u rs1 = s.u rs2 :=
    decide_eq_true_iff.trans (s.src_eq_iff rs1 rs2)
  have hjne : exec (.jne rs1 rs2 imm) s = s.condJump (!decide (s.src rs1 = s.src rs2)) imm :=
    congrArg (s.condJump · imm) (decide_not ..)
  refine ⟨?jeq, ?jlt, ?jslt, ?jne, ?jge, ?jsge⟩
  case jeq => exact .of_condJump rfl heq
  case jlt => exact .of_condJump rfl (s.unsignedLess_src_iff rs1 rs2)
  case jslt => exact .of_condJump rfl (s.signedLess_src_iff rs1 rs2)
  case jne => exact .of_condJump_not hjne heq
  case jge => exact .of_condJump_not rfl (s.unsignedLess_src_iff rs1 rs2)
  case jsge => exact .of_condJump_not rfl (s.signedLess_src_iff rs1 rs2)

end Sys2Proof.Machine
end

section
/-! # The family of the System extension: SYSCALL, SYSRET, CSRW and CSRR (45_system.md)

A trap entry and a CSRW are writes of CSRs and `pc`, so their frames are those of `setCsr` and `setPc`. Whether a CSRW in
Kernel mode stops is `State.csrwFault`, which the section reads as conditions on the number of the value. -/

namespace Sys2Proof.Machine

/-! ## Writes of CSRs and `pc` -/

@[simp] theorem State.csr_setPc {w : Nat} (s : State) (t : BitVec w) (n : Nat) : (s.setPc t).csr n = s.csr n := rfl

/-- A CSR that the trap entry does not write reads as before (60_exceptions.md R342, R343). -/
theorem State.csr_takeTrap (s : State) (c : TrapCause) (ret : BitVec s.opWidth) {n : Nat} (h1 : n ≠ 1) (h2 : n ≠ 2)
    (h6 : n ≠ 6) : (s.takeTrap c ret).csr n = s.csr n := by
  simp only [State.takeTrap_eq_setCsr, State.csr_setPc, State.csr_setCsr, h1, h2, h6, false_and, if_false]

/-- Everything the storage of a CSRW does: the CSR of an existing number other than `htid` holds the value, and `pc` is
the only other thing that changes. -/
theorem State.setCsr_setPc_spec (s : State) {n : Nat} (hn : n < 10) (v : Word64) (pc : BitVec s.opWidth) :
    let t := (s.setCsr n v).setPc pc
    t.csr n = some v ∧ (∀ m, m ≠ n → t.csr m = s.csr m) ∧ t.pc.toNat = pc.toNat ∧
      SameRegs s t ∧ SamePlatform s t ∧ SameMemory s t ∧ t.events = s.events := by
  refine ⟨?_, fun m hm => ?_, s.toNat_setWidth64 pc, fun r => ?_, ?_, fun a => ?_, ?_⟩
  · rw [State.csr_setPc, State.csr_setCsr, if_pos ⟨rfl, hn⟩]
  · rw [State.csr_setPc, State.csr_setCsr, if_neg fun h => hm h.1]
  · exact State.reg_congr (by simp) r
  · simp [SamePlatform]
  · simp
  · simp

/-! ## The checks of CSRW as conditions on a number (45_system.md R254) -/

/-- The values that CSRW may write to `msr` are the numbers below this one (10_state.md R33). -/
def msrLimit : Xlen → Nat
  | .x32 => 2
  | .x64 => 4

/-- No bit of `v` lies outside the mask `m`. -/
theorem and_not_eq_zero_iff {w : Nat} (v m : BitVec w) : v &&& ~~~m = 0 ↔ v &&& m = v := by
  constructor
  · intro h
    ext i hi
    have hbit : (v &&& ~~~m)[i] = false := by simp [h]
    simpa using hbit
  · intro h
    rw [← h, BitVec.and_assoc]
    simp

/-- A value has no bit above the low `k` where its number is below `2 ^ k`. -/
theorem and_not_lowOnes_eq_zero_iff {w k : Nat} {v m : BitVec w} (hm : m.toNat = 2 ^ k - 1) :
    v &&& ~~~m = 0 ↔ v.toNat < 2 ^ k := by
  rw [and_not_eq_zero_iff, ← BitVec.toNat_inj, BitVec.toNat_and, hm, Nat.and_two_pow_sub_one_eq_mod]
  exact Nat.mod_eq_iff_lt (Nat.two_pow_pos k).ne'

/-- A value has no reserved bit of `msr` where its number is below the limit. -/
theorem and_not_msrWritable_eq_zero_iff (x : Xlen) (v : Word64) :
    v &&& ~~~(msrWritable x) = 0 ↔ v.toNat < msrLimit x := by
  cases x with
  | x32 => exact and_not_lowOnes_eq_zero_iff (k := 1) rfl
  | x64 => exact and_not_lowOnes_eq_zero_iff (k := 2) rfl

/-- A CSRW to `csr0` to `csr9` has no fault where the value is one that `msr` or `pvg` can hold. -/
theorem State.csrwFault_eq_none {s : State} {n : Nat} {v : Word64} (hn : n < 10)
    (hmsr : n = 0 → v.toNat < msrLimit s.cfg.xlen) (hpvg : n = 1 → v = 0 ∨ v = 2) : s.csrwFault n v = none := by
  have hbits : ¬ (n = 0 ∧ v &&& ~~~(msrWritable s.cfg.xlen) ≠ 0) := fun ⟨h0, h⟩ =>
    h ((and_not_msrWritable_eq_zero_iff _ v).mpr (hmsr h0))
  have hmode : ¬ (n = 1 ∧ v ≠ 0 ∧ v ≠ 2) := fun ⟨h1, hv0, hv2⟩ => (hpvg h1).elim hv0 hv2
  rw [State.csrwFault, if_neg (by omega), if_neg (by omega), if_neg hbits, if_neg hmode]

/-- A CSRW to `msr` of a value with a reserved bit has a fault (10_state.md R33). -/
theorem State.csrwFault_reserved_msr {s : State} {v : Word64} (h : msrLimit s.cfg.xlen ≤ v.toNat) :
    s.csrwFault 0 v = some .reservedCsrValue := by
  have hbits : v &&& ~~~(msrWritable s.cfg.xlen) ≠ 0 :=
    mt (and_not_msrWritable_eq_zero_iff _ v).mp (not_lt.mpr h)
  rw [State.csrwFault, if_neg (by decide), if_neg (by decide), if_pos ⟨rfl, hbits⟩]

/-- A CSRW to `pvg` of a value other than User and Kernel has a fault (10_state.md R34). -/
theorem State.csrwFault_reserved_pvg {s : State} {v : Word64} (h0 : v ≠ 0) (h2 : v ≠ 2) :
    s.csrwFault 1 v = some .reservedCsrValue := by
  rw [State.csrwFault, if_neg (by decide), if_neg (by decide), if_neg (fun h => absurd h.1 (by decide)),
    if_pos ⟨rfl, h0, h2⟩]

/-! ## The value that CSRW writes -/

theorem State.src_zext_eq_iff (s : State) (r : RegNum) (v : Word64) :
    (s.src r).setWidth 64 = v ↔ s.u r = v.toNat := by
  rw [← BitVec.toNat_inj, State.toNat_setWidth64, State.src_toNat]

theorem State.src_zext (s : State) (r : RegNum) : (s.src r).setWidth 64 = BitVec.ofNat 64 (s.u r) := by
  rw [← State.src_toNat, BitVec.ofNat_toNat]

/-! ## The arms of the four instructions -/

theorem exec_sysret_user {s : State} (hk : s.kernel = false) : exec .sysret s = .fault .sysretInUserMode := by
  simp [exec, execSysret, hk]

theorem exec_sysret_reserved {s : State} (hk : s.kernel = true) (h0 : s.spvg ≠ 0) (h2 : s.spvg ≠ 2) :
    exec .sysret s = .fault .reservedCsrValue := by
  simp only [exec, execSysret, hk, if_true, if_pos (And.intro h0 h2)]

theorem exec_csrw_kernel {s : State} {rs1 : RegNum} {n : CsrNum} (hk : s.kernel = true)
    (hf : s.csrwFault n.toNat ((s.src rs1).setWidth 64) = none) :
    exec (.csrw rs1 n) s = .next ((s.setCsr n.toNat ((s.src rs1).setWidth 64)).setPc s.seqPc) := by
  simp [exec, execCsrw, hk, hf]

theorem exec_csrw_fault {s : State} {rs1 : RegNum} {n : CsrNum} {f : Fault} (hk : s.kernel = true)
    (hf : s.csrwFault n.toNat ((s.src rs1).setWidth 64) = some f) : exec (.csrw rs1 n) s = .fault f := by
  simp [exec, execCsrw, hk, hf]

theorem exec_csrr_kernel {s : State} {n : CsrNum} {v : Word64} (rd : RegNum) (hk : s.kernel = true)
    (hv : s.csr n.toNat = some v) : exec (.csrr rd n) s = s.retire (.csrr rd n) rd (v.setWidth s.opWidth) := by
  simp [exec, execCsrr, hk, hv]

/-! ## The statements -/

/-- Settles O40: the value passes the checks of `csrwFault`, and the effect is the one of `setCsr` and `setPc`. -/
theorem csrwWritesInKernelMode : Obligations.CsrwWritesInKernelMode := by
  intro s rs1 n hmode hn hmsr hpvg
  have hnone : s.csrwFault n.toNat ((s.src rs1).setWidth 64) = none := by
    refine State.csrwFault_eq_none hn (fun h0 => ?msr) (fun h1 => ?pvg)
    case msr =>
      rw [State.toNat_setWidth64, State.src_toNat]
      exact hmsr (BitVec.eq_of_toNat_eq h0)
    case pvg =>
      rw [State.src_zext_eq_iff, State.src_zext_eq_iff]
      exact hpvg (BitVec.eq_of_toNat_eq h1)
  obtain ⟨hcsr, hother, hpc, frame⟩ := s.setCsr_setPc_spec hn ((s.src rs1).setWidth 64) s.seqPc
  exact ⟨_, exec_csrw_kernel (s.kernel_iff.mpr hmode) hnone, hcsr.trans (congrArg some (s.src_zext rs1)), hother,
    hpc.trans s.seqPc_toNat, frame⟩

/-- Settles O43: by the mode, Kernel or User. -/
theorem csrrReads : Obligations.CsrrReads := by
  intro s rd n
  refine ⟨fun hmode v hv => ?_, fun hmode => csrr_user_computes rd n (s.kernel_eq_false_iff.mpr hmode)⟩
  exact .of_retire (exec_csrr_kernel rd (s.kernel_iff.mpr hmode) hv) (BitVec.toNat_setWidth _ _)

/-- Settles O37: SYSCALL is the trap entry with `pc + 4`, whatever the mode. -/
theorem syscallTakesTheTrap : Obligations.SyscallTakesTheTrap := by
  intro s
  refine ⟨s.takeTrap .systemCall s.seqPc, rfl, ?iraddr, rfl, rfl, s.toNat_narrowed s.scvaddr,
    fun n h1 h2 h6 => s.csr_takeTrap _ _ h1 h2 h6, fun r => State.reg_congr rfl r, ?platform, fun a => rfl, rfl⟩
  case iraddr => exact (s.toNat_setWidth64 s.seqPc).trans s.seqPc_toNat
  case platform => simp [SamePlatform]

/-- Settles O39: the User-mode arm of SYSRET, and the test of `spvg` in its Kernel-mode arm. -/
theorem sysretStops : Obligations.SysretStops := by
  intro s
  exact ⟨fun hmode => exec_sysret_user (s.kernel_eq_false_iff.mpr hmode),
    fun hmode h0 h2 => exec_sysret_reserved (s.kernel_iff.mpr hmode) h0 h2⟩

/-- Settles O41: the User-mode arm of CSRW, for every number. -/
theorem csrwInUserModeDoesNothing : Obligations.CsrwInUserModeDoesNothing := by
  intro s rs1 n hmode
  exact csrw_user_jumps rs1 n (s.kernel_eq_false_iff.mpr hmode)

/-- Settles O42: the fault that `csrwFault` names for `htid`, for `msr` and for `pvg`. -/
theorem csrwStops : Obligations.CsrwStops := by
  intro s rs1 hmode
  have hk := s.kernel_iff.mpr hmode
  refine ⟨exec_csrw_fault hk ?htid, fun hv => exec_csrw_fault hk ?msr, fun h0 h2 => exec_csrw_fault hk ?pvg⟩
  case htid => rfl
  case msr =>
    refine State.csrwFault_reserved_msr ?_
    rw [State.toNat_setWidth64, State.src_toNat]
    exact hv
  case pvg =>
    exact State.csrwFault_reserved_pvg (mt (s.src_zext_eq_iff rs1 0).mp h0) (mt (s.src_zext_eq_iff rs1 2).mp h2)

end Sys2Proof.Machine
end

section
/-! # The family of SRM64: the operating width, narrow results, and SRM32 code on an SRM64 hart (46_srm64.md)

`Lockstep` is `Srm32Sim` with its parts named. Each operation on the state that an instruction, the boundary or the
environment is made of keeps it, where the values the two machines write are the same number. `Follows` says what the
SRM64 hart answers where SRM32 has answered; it is proved for `exec` by the instruction, and then for `step`. -/

namespace Sys2Proof.Machine

/-! ## The operating width (46_srm64.md R271) -/

theorem State.q_eq_decide (s : State) : s.q = decide (s.msr.toNat / 2 % 2 = 1) := by
  rw [State.q, BitVec.getLsbD, Nat.testBit_eq_decide_div_mod_eq, pow_one]

theorem State.opWidth_x32 {s : State} (hx : s.cfg.xlen = .x32) : s.opWidth = 32 := by
  rw [State.opWidth, hx]

theorem State.opWidth_x64 {s : State} (hx : s.cfg.xlen = .x64) : s.opWidth = if s.q then 64 else 32 := by
  rw [State.opWidth, hx]

/-- SRM64 without the System extension is no configuration of the spec. -/
theorem Config.valid_x64_without_system {c : Config} (hx : c.xlen = .x64) (hs : c.extS = false) : c.valid = false := by
  simp [Config.valid, hx, hs]

/-- SYSRET, where it completes, is the return from a trap. -/
theorem exec_sysret_next {s t : State} (h : exec .sysret s = .next t) : t = s.trapReturn := by
  simp only [exec, execSysret] at h
  split at h
  · split at h <;> cases h
    rfl
  · cases h

/-- Settles O10: the cases of `opWidth`; a trap entry and the return leave `msr` and the configuration alone. -/
theorem operatingWidthFollowsQ : Obligations.OperatingWidthFollowsQ := by
  intro s
  refine ⟨State.opWidth_x32, fun hx hq => ?wide, fun hx hq => ?narrow, fun hx hs => ?refused, s.takeTrap_opWidth,
    fun t ht => ?sysret⟩
  case wide => simp [State.opWidth_x64 hx, State.q_eq_decide, hq]
  case narrow => simp [State.opWidth_x64 hx, State.q_eq_decide, hq]
  case refused => simp [step, Config.valid_x64_without_system hx hs]
  case sysret =>
    rw [exec_sysret_next ht]
    exact s.trapReturn_opWidth

/-! ## The upper half of a narrow result (46_srm64.md R272) -/

/-- What `WriteW` leaves in its register on SRM64 with Q = 0. -/
theorem State.reg_writeW_narrow {s : State} (i : Instr) {rd : RegNum} (v : BitVec s.opWidth) (hn : s.narrow = true)
    (h0 : rd ≠ 0) :
    (s.writeW i rd v).reg rd = Reg.value ⟨s.upperHalf i (s.reg rd) (v.setWidth 32), v.setWidth 32⟩ := by
  rw [State.reg_writeW, if_pos ⟨rfl, h0⟩, if_pos hn]

/-- A narrow result loses nothing when it is brought to 32 bits. -/
theorem State.narrow_setWidth_toNat {s : State} (hn : s.narrow = true) (v : BitVec s.opWidth) :
    (v.setWidth 32).toNat = v.toNat := by
  rw [BitVec.toNat_setWidth, Nat.mod_eq_of_lt]
  exact State.opWidth_of_narrow hn ▸ v.isLt

/-- A register with copies of bit 31 above holds the sign extension of its lower half. -/
theorem Reg.value_sext (lo : BitVec 32) :
    Reg.value ⟨if lo.msb then BitVec.allOnes 32 else 0, lo⟩ = lo.signExtend 64 :=
  (BitVec.signExtend_eq_append_of_le (by decide : 32 ≤ 64)).symm

/-- Settles O19: the register's two halves under each candidate. -/
theorem narrowResultUpperHalf : Obligations.NarrowResultUpperHalf := by
  intro s i rd v hn h0
  have hlo := State.narrow_setWidth_toNat hn v
  rw [State.reg_writeW_narrow i v hn h0, State.upperHalf]
  refine ⟨fun hc => ?sext, fun hc => ?zext, fun hc => ?keep⟩ <;> rw [hc]
  case sext =>
    rw [Reg.value_sext, BitVec.toInt_signExtend_of_le (by decide), BitVec.toInt_eq_toNat_bmod, hlo]
  case zext => simp [Reg.value_toNat, hlo]
  case keep =>
    have hold := (s.reg rd).isLt
    rw [Reg.value_toNat, hlo, BitVec.extractLsb'_toNat, Nat.shiftRight_eq_div_pow]
    omega

/-! ## The correspondence of the two machines (46_srm64.md R271) -/

/-- `Srm32Sim`, with a name for each part. -/
structure Lockstep (a b : State) : Prop where
  xlen : b.cfg.xlen = .x64
  extS : b.cfg.extS = true
  q : b.q = false
  cfg : a.cfg = { b.cfg with xlen := .x32 }
  noDevice : ∀ x d, b.kindAt x ≠ .device d
  regLo : ∀ r, a.regLo r = b.regLo r
  pc : a.pc = b.pc
  csr : ∀ n, a.csr n = b.csr n
  read : ∀ x, a.mem.read x = b.mem.read x
  events : a.events = b.events
  irq : a.irq = b.irq
  timerDue : a.timerDue = b.timerDue
  inputs : a.inputs = b.inputs
  irq32 : ∀ c, b.irq = some c → c.toNat < 2 ^ 32
  inputs32 : ∀ e ∈ b.inputs, (∀ v, e.timer = some v → v.toNat < 2 ^ 32) ∧ ∀ c, e.irq = .raise c → c.toNat < 2 ^ 32

/-- The CSRs are the same where every number reads the same. -/
theorem sameCsrs_iff (s t : State) : SameCsrs s t ↔ ∀ n, t.csr n = s.csr n := by
  refine ⟨SameCsrs.csr, fun h => ?_⟩
  have same : ∀ n (x y : Word64), s.csr n = some x → t.csr n = some y → y = x := fun n x y hx hy =>
    Option.some.inj (hy.symm.trans ((h n).trans hx))
  exact ⟨same 0 _ _ rfl rfl, same 1 _ _ rfl rfl, same 2 _ _ rfl rfl, same 3 _ _ rfl rfl, same 4 _ _ rfl rfl,
    same 5 _ _ rfl rfl, same 6 _ _ rfl rfl, same 7 _ _ rfl rfl, same 8 _ _ rfl rfl, same 9 _ _ rfl rfl,
    same 10 _ _ rfl rfl⟩

theorem srm32Sim_iff_lockstep (a b : State) : Srm32Sim a b ↔ Lockstep a b := by
  constructor
  · rintro ⟨hx, hs, hq, hcfg, hdev, hreg, hpc, hcsr, hmem, hev, hirq, hdue, hin, hcause, henv⟩
    exact ⟨hx, hs, hq, hcfg, hdev, hreg, hpc, fun n => (hcsr.csr n).symm, fun x => (hmem x).symm, hev, hirq, hdue, hin,
      hcause, henv⟩
  · intro h
    exact ⟨h.xlen, h.extS, h.q, h.cfg, h.noDevice, h.regLo, h.pc, (sameCsrs_iff a b).mpr fun n => (h.csr n).symm,
      fun x => (h.read x).symm, h.events, h.irq, h.timerDue, h.inputs, h.irq32, h.inputs32⟩

/-! ## What the two machines read the same -/

section
variable {a b : State}

theorem Lockstep.xlen_left (h : Lockstep a b) : a.cfg.xlen = .x32 := by rw [h.cfg]

theorem Lockstep.opWidth_right (h : Lockstep a b) : b.opWidth = 32 := by simp [State.opWidth_x64 h.xlen, h.q]

theorem Lockstep.opWidth (h : Lockstep a b) : a.opWidth = b.opWidth := by
  rw [State.opWidth_x32 h.xlen_left, h.opWidth_right]

theorem Lockstep.narrow_right (h : Lockstep a b) : b.narrow = true := by simp [State.narrow, h.xlen, h.q]

theorem Lockstep.kindAt (h : Lockstep a b) (x : Nat) : a.kindAt x = b.kindAt x := by
  simp [State.kindAt, h.cfg]

/-- Two values that one CSR number reads on the two machines are the same. -/
theorem Lockstep.of_csr (h : Lockstep a b) (n : Nat) {x y : Word64} (hx : a.csr n = some x) (hy : b.csr n = some y) :
    x = y :=
  Option.some.inj (hx.symm.trans ((h.csr n).trans hy))

theorem Lockstep.msr (h : Lockstep a b) : a.msr = b.msr := h.of_csr 0 rfl rfl
theorem Lockstep.pvg (h : Lockstep a b) : a.pvg = b.pvg := h.of_csr 1 rfl rfl
theorem Lockstep.spvg (h : Lockstep a b) : a.spvg = b.spvg := h.of_csr 2 rfl rfl
theorem Lockstep.iraddr (h : Lockstep a b) : a.iraddr = b.iraddr := h.of_csr 6 rfl rfl
theorem Lockstep.pcstrv (h : Lockstep a b) : a.pcstrv = b.pcstrv := h.of_csr 8 rfl rfl
theorem Lockstep.pcst (h : Lockstep a b) : a.pcst = b.pcst := h.of_csr 9 rfl rfl

theorem Lockstep.vector (h : Lockstep a b) (c : TrapCause) : a.vector c = b.vector c := by
  cases c with
  | systemCall => exact h.of_csr 5 rfl rfl
  | external => exact h.of_csr 3 rfl rfl
  | contextSwitch => exact h.of_csr 7 rfl rfl

theorem Lockstep.kernel (h : Lockstep a b) : a.kernel = b.kernel := by simp only [State.kernel, h.pvg]

theorem Lockstep.ei (h : Lockstep a b) : a.ei = b.ei := by simp only [State.ei, h.msr]

theorem Lockstep.ip (h : Lockstep a b) : a.ip = b.ip := by
  apply BitVec.eq_of_toNat_eq
  rw [State.ip_toNat, State.ip_toNat, h.opWidth, h.pc]

theorem Lockstep.seqPc (h : Lockstep a b) : a.seqPc.toNat = b.seqPc.toNat := by
  rw [State.seqPc_toNat, State.seqPc_toNat, State.seqNat, State.seqNat, h.opWidth, h.pc]

theorem Lockstep.immW (h : Lockstep a b) {n : Nat} (imm : BitVec n) : (a.immW imm).toNat = (b.immW imm).toNat := by
  rw [State.immW_toNat, State.immW_toNat, State.immU, State.immU, h.opWidth]

/-- A 32-bit machine's operand is the lower half of its register. -/
theorem State.src_toNat_of_opWidth {s : State} (hw : s.opWidth = 32) (r : RegNum) :
    (s.src r).toNat = (s.regLo r).toNat := by
  rw [State.src_eq, State.regLo_eq, BitVec.toNat_setWidth, BitVec.toNat_setWidth, hw]

theorem Lockstep.src (h : Lockstep a b) (r : RegNum) : (a.src r).toNat = (b.src r).toNat := by
  rw [State.src_toNat_of_opWidth (h.opWidth.trans h.opWidth_right), State.src_toNat_of_opWidth h.opWidth_right,
    h.regLo]

theorem Lockstep.src_zext (h : Lockstep a b) (r : RegNum) : (a.src r).setWidth 64 = (b.src r).setWidth 64 := by
  apply BitVec.eq_of_toNat_eq
  rw [State.toNat_setWidth64, State.toNat_setWidth64, h.src]

/-- What is made at one width of operands that are the same numbers is the same. -/
theorem width_congr {α : Type} {m n : Nat} (hmn : m = n) (f : ∀ w, BitVec w → BitVec w → α) {x y : BitVec m}
    {x' y' : BitVec n} (hx : x.toNat = x'.toNat) (hy : y.toNat = y'.toNat) : f m x y = f n x' y' := by
  subst hmn
  rw [BitVec.eq_of_toNat_eq hx, BitVec.eq_of_toNat_eq hy]

theorem toNat_congr {m n : Nat} (hmn : m = n) (f : ∀ w, BitVec w → BitVec w → BitVec w) {x y : BitVec m}
    {x' y' : BitVec n} (hx : x.toNat = x'.toNat) (hy : y.toNat = y'.toNat) : (f m x y).toNat = (f n x' y').toNat :=
  width_congr hmn (fun w x y => (f w x y).toNat) hx hy

theorem Lockstep.relTarget (h : Lockstep a b) {n : Nat} (imm : BitVec n) :
    (a.relTarget imm).toNat = (b.relTarget imm).toNat := by
  rw [State.relTarget_toNat, State.relTarget_toNat, State.immU, State.immU, h.pc, h.opWidth]

theorem Lockstep.accessAddr (h : Lockstep a b) (rs1 : RegNum) (imm : Imm12) (n : Nat) :
    a.accessAddr rs1 imm n = b.accessAddr rs1 imm n := by
  unfold State.accessAddr State.ea
  rw [toNat_congr h.opWidth (fun _ x y => x + y) (h.src rs1) (h.immW imm)]

theorem Lockstep.storeData (h : Lockstep a b) (r : RegNum) {n : Nat} (hn : n ≤ 4) :
    a.storeData r n = b.storeData r n := by
  rw [State.storeData, State.storeData, if_pos hn, if_pos hn, h.regLo]

theorem Lockstep.byteAt (h : Lockstep a b) (x : Nat) : a.byteAt x = b.byteAt x := by
  have hb : b.isDevice x = false := Bool.eq_false_iff.mpr fun hd =>
    ((b.isDevice_iff x).mp hd).elim fun d => h.noDevice x d
  have ha : a.isDevice x = false := by rw [State.isDevice, h.kindAt, ← State.isDevice, hb]
  rw [State.byteAt_of_not_device ha, State.byteAt_of_not_device hb, h.read]

theorem Lockstep.readable (h : Lockstep a b) (addr n : Nat) : a.readable addr n = b.readable addr n := by
  simp only [State.readable, h.kindAt]

theorem Lockstep.writable (h : Lockstep a b) (addr n : Nat) : a.writable addr n = b.writable addr n := by
  simp only [State.writable, h.kindAt]

/-- The values that SRM32 cuts to its registers are cut no further where they have 32 bits. -/
theorem Lockstep.fit (h : Lockstep a b) {v : Word64} (hv : v.toNat < 2 ^ 32) : a.cfg.fit v = b.cfg.fit v := by
  apply BitVec.eq_of_toNat_eq
  rw [Config.fit_toNat, Config.fit_toNat, h.xlen_left, h.xlen, Xlen.bits, Xlen.bits, Nat.mod_eq_of_lt hv,
    Nat.mod_eq_of_lt v.isLt]

/-! ## Operations on the state that keep the correspondence -/

theorem Lockstep.setPc (h : Lockstep a b) {m n : Nat} {v : BitVec m} {w : BitVec n} (hvw : v.toNat = w.toNat) :
    Lockstep (a.setPc v) (b.setPc w) :=
  { h with pc := BitVec.eq_of_toNat_eq (by simp [hvw]) }

/-- Only the lower half of a register has to be the same. -/
theorem Lockstep.setHalves (h : Lockstep a b) (rd : RegNum) (hi hi' lo : BitVec 32) :
    Lockstep (a.setHalves rd hi lo) (b.setHalves rd hi' lo) := by
  have hreg : ∀ r, (a.setHalves rd hi lo).regLo r = (b.setHalves rd hi' lo).regLo r := fun r => by
    rw [State.regLo_setHalves, State.regLo_setHalves, h.regLo]
  by_cases h0 : rd = 0
  · rwa [State.setHalves, State.setHalves, if_pos h0, if_pos h0]
  · rw [State.setHalves, State.setHalves, if_neg h0, if_neg h0] at hreg ⊢
    exact { h with regLo := hreg }

theorem Lockstep.setReg (h : Lockstep a b) (rd : RegNum) (v : Word64) : Lockstep (a.setReg rd v) (b.setReg rd v) := by
  rw [State.setReg, State.setReg, h.xlen_left, h.xlen]
  exact h.setHalves rd _ _ _

theorem Lockstep.writeW (h : Lockstep a b) (i : Instr) (rd : RegNum) {v : BitVec a.opWidth} {w : BitVec b.opWidth}
    (hvw : v.toNat = w.toNat) : Lockstep (a.writeW i rd v) (b.writeW i rd w) := by
  have hlo : (v.setWidth 64).setWidth 32 = w.setWidth 32 := BitVec.eq_of_toNat_eq (by
    rw [BitVec.toNat_setWidth, State.toNat_setWidth64, hvw, BitVec.toNat_setWidth])
  rw [State.writeW, State.writeW, State.narrow_of_x32 h.xlen_left, h.narrow_right, State.setReg, h.xlen_left, ← hlo]
  exact { h.setHalves rd _ _ _ with }

theorem State.setCsr_of_le (s : State) {n : Nat} (hn : 10 ≤ n) (v : Word64) : s.setCsr n v = s := by
  unfold State.setCsr
  split
  case h_11 => rfl
  all_goals omega

/-- A CSR is written with one value, which leaves Q = 0. -/
theorem Lockstep.setCsr (h : Lockstep a b) (n : Nat) {v w : Word64} (hvw : v = w)
    (hq : n = 0 → w.getLsbD 1 = false) : Lockstep (a.setCsr n v) (b.setCsr n w) := by
  have hcsr : ∀ m, (a.setCsr n v).csr m = (b.setCsr n w).csr m := fun m => by
    rw [State.csr_setCsr, State.csr_setCsr, h.csr, hvw]
  have hq : (b.setCsr n w).q = false := by
    rw [State.q, State.setCsr_msr]
    split
    · exact hq ‹_›
    · exact h.q
  by_cases hn : n < 10
  · interval_cases n <;> exact { h with csr := hcsr, q := hq }
  · rwa [State.setCsr_of_le a (not_lt.mp hn), State.setCsr_of_le b (not_lt.mp hn)]

theorem Lockstep.takeTrap (h : Lockstep a b) (c : TrapCause) {ret : BitVec a.opWidth} {ret' : BitVec b.opWidth}
    (hret : ret.toNat = ret'.toNat) : Lockstep (a.takeTrap c ret) (b.takeTrap c ret') := by
  have hret64 : ret.setWidth 64 = ret'.setWidth 64 := BitVec.eq_of_toNat_eq (by simp [hret])
  have hcsrs := ((h.setCsr 6 hret64 (by simp)).setCsr 2 h.pvg (by simp)).setCsr 1 (rfl : (2 : Word64) = 2) (by simp)
  rw [State.takeTrap_eq_setCsr, State.takeTrap_eq_setCsr]
  refine hcsrs.setPc ?_
  rw [BitVec.toNat_setWidth, BitVec.toNat_setWidth, h.vector, h.opWidth]

theorem Lockstep.trapReturn (h : Lockstep a b) : Lockstep a.trapReturn b.trapReturn := by
  rw [State.trapReturn_eq_setCsr, State.trapReturn_eq_setCsr]
  refine (h.setCsr 1 h.spvg (by simp)).setPc ?_
  rw [BitVec.toNat_setWidth, BitVec.toNat_setWidth, h.iraddr, h.opWidth]

/-- Two memories that read the same read the same after the same writes. -/
theorem Memory.read_foldl_write_congr (p : Host.Cell → Prop) [DecidablePred p] (cells : List Host.Cell)
    {m n : Memory} (h : ∀ x, Memory.read m x = Memory.read n x) (x : Nat) :
    Memory.read (cells.foldl (fun m c => if p c then Memory.write m c.1 c.2 else m) m) x =
      Memory.read (cells.foldl (fun m c => if p c then Memory.write m c.1 c.2 else m) n) x := by
  induction cells generalizing m n with
  | nil => exact h x
  | cons c rest ih =>
    refine ih fun y => ?_
    dsimp only
    split
    · rw [Memory.read_write, Memory.read_write, h y]
    · exact h y

theorem Lockstep.writeCells (h : Lockstep a b) (cells : List Host.Cell) :
    Lockstep (a.writeCells cells) (b.writeCells cells) := by
  refine { h with read := fun x => ?_ }
  rw [State.writeCells_mem, State.writeCells_mem]
  simp only [h.kindAt]
  exact Memory.read_foldl_write_congr (fun c => b.kindAt c.1 = .ram) cells h.read x

/-- Where no byte belongs to a device, an access is no event. -/
theorem Lockstep.noteAccess (h : Lockstep a b) (isWrite : Bool) (addr n : Nat) (cells : List Host.Cell) :
    Lockstep (a.noteAccess isWrite addr n cells) (b.noteAccess isWrite addr n cells) := by
  rw [State.noteAccess_plain b _ _ _ _ fun c _ => h.noDevice c.1,
    State.noteAccess_plain a _ _ _ _ fun c _ => h.kindAt c.1 ▸ h.noDevice c.1]
  exact h

/-! ## The answers of the two machines -/

/-- The answer of the SRM64 hart, the second, follows the answer of SRM32: it completes in a state that corresponds, or
meets the same fault; a reserved word and a reserved CSR value of SRM32 may have a meaning on SRM64. -/
inductive Follows : Result → Result → Prop where
  | next {t u : State} (h : Lockstep t u) : Follows (.next t) (.next u)
  | fault (f : Fault) : Follows (.fault f) (.fault f)
  | reserved {f : Fault} (hf : f = .reservedEncoding ∨ f = .reservedCsrValue) (r : Result) : Follows (.fault f) r
  | refused (r : Refusal) : Follows (.refused r) (.refused r)

theorem Follows.of_next {r r' : Result} {t : State} (h : Follows r r') (ht : r = .next t) :
    ∃ u, r' = .next u ∧ Srm32Sim t u := by
  cases h with
  | next hlock =>
    cases ht
    exact ⟨_, rfl, (srm32Sim_iff_lockstep _ _).mpr hlock⟩
  | fault | reserved | refused => cases ht

theorem Follows.of_fault {r r' : Result} {f : Fault} (h : Follows r r') (hr : r = .fault f)
    (he : f ≠ .reservedEncoding) (hv : f ≠ .reservedCsrValue) : r' = .fault f := by
  cases h with
  | fault => exact hr
  | reserved hf =>
    cases hr
    exact absurd hf (not_or.mpr ⟨he, hv⟩)
  | next | refused => cases hr

/-! ## How an instruction ends -/

theorem Lockstep.retire (h : Lockstep a b) (i : Instr) (rd : RegNum) {v : BitVec a.opWidth} {w : BitVec b.opWidth}
    (hvw : v.toNat = w.toNat) : Follows (a.retire i rd v) (b.retire i rd w) :=
  .next ((h.writeW i rd hvw).setPc h.seqPc)

/-- An instruction computes at the operating width; the computation itself does not ask on which machine. -/
theorem Lockstep.compute (h : Lockstep a b) {i : Instr} {rd : RegNum} (f : ∀ w, BitVec w → BitVec w → BitVec w)
    {x y : BitVec a.opWidth} {x' y' : BitVec b.opWidth} (hx : x.toNat = x'.toNat) (hy : y.toNat = y'.toNat) :
    Follows (a.retire i rd (f _ x y)) (b.retire i rd (f _ x' y')) :=
  h.retire i rd (toNat_congr h.opWidth f hx hy)

/-- A computation that reads the parameters of the configuration reads the same ones on both machines. -/
theorem Lockstep.computeIn (h : Lockstep a b) {i : Instr} {rd : RegNum}
    (f : Config → ∀ w, BitVec w → BitVec w → BitVec w) (hf : ∀ c, f { c with xlen := .x32 } = f c)
    {x y : BitVec a.opWidth} {x' y' : BitVec b.opWidth} (hx : x.toNat = x'.toNat) (hy : y.toNat = y'.toNat) :
    Follows (a.retire i rd (f a.cfg _ x y)) (b.retire i rd (f b.cfg _ x' y')) := by
  rw [h.cfg, hf]
  exact h.compute (f b.cfg) hx hy

theorem Lockstep.jumpLink (h : Lockstep a b) {i : Instr} {rd : RegNum} {v : BitVec a.opWidth} {w : BitVec b.opWidth}
    (hvw : v.toNat = w.toNat) : Follows (a.jumpLink i rd v) (b.jumpLink i rd w) :=
  .next ((h.writeW i rd h.seqPc).setPc hvw)

theorem Lockstep.condJump (h : Lockstep a b) (rs1 rs2 : RegNum) (imm : Imm12) (f : ∀ w, BitVec w → BitVec w → Bool) :
    Follows (a.condJump (f _ (a.src rs1) (a.src rs2)) imm) (b.condJump (f _ (b.src rs1) (b.src rs2)) imm) := by
  rw [width_congr h.opWidth f (h.src rs1) (h.src rs2)]
  refine .next (h.setPc ?_)
  split
  · exact h.relTarget imm
  · exact h.seqPc

/-- A load reads the same value on both machines, or faults on both. -/
theorem Lockstep.load (h : Lockstep a b) (addr n : Nat) :
    (∃ v t u, a.load addr n = .ok (v, t) ∧ b.load addr n = .ok (v, u) ∧ Lockstep t u) ∨
      ∃ f, a.load addr n = .error f ∧ b.load addr n = .error f := by
  have hbyte : a.byteAt = b.byteAt := funext h.byteAt
  rw [State.load, State.load, State.bytesAt, State.bytesAt, hbyte, h.readable]
  split
  · exact .inl ⟨_, _, _, rfl, rfl, h.noteAccess _ _ _ _⟩
  · exact .inr ⟨_, rfl, rfl⟩

/-- A store completes on both machines, or faults on both. -/
theorem Lockstep.store (h : Lockstep a b) (addr n : Nat) (v : BitVec (8 * n)) :
    (∃ t u, a.store addr n v = .ok t ∧ b.store addr n v = .ok u ∧ Lockstep t u) ∨
      ∃ f, a.store addr n v = .error f ∧ b.store addr n v = .error f := by
  rw [State.store, State.store, h.writable]
  split
  · exact .inl ⟨_, _, rfl, rfl, (h.writeCells _).noteAccess _ _ _ _⟩
  · exact .inr ⟨_, rfl, rfl⟩

theorem Lockstep.loadTo (h : Lockstep a b) (rd rs1 : RegNum) (imm : Imm12) (n : Nat)
    (ext : BitVec (8 * n) → Word64) : Follows (a.loadTo rd rs1 imm n ext) (b.loadTo rd rs1 imm n ext) := by
  rw [State.loadTo, State.loadTo, h.accessAddr]
  rcases h.load (b.accessAddr rs1 imm n) n with ⟨v, t, u, ha, hb, hlock⟩ | ⟨f, ha, hb⟩ <;> rw [ha, hb]
  · exact .next ((hlock.setReg rd (ext v)).setPc h.seqPc)
  · exact .fault f

theorem Lockstep.storeFrom (h : Lockstep a b) (rs1 rs2 : RegNum) (imm : Imm12) {n : Nat} (hn : n ≤ 4) :
    Follows (a.storeFrom rs1 rs2 imm n) (b.storeFrom rs1 rs2 imm n) := by
  rw [State.storeFrom, State.storeFrom, h.accessAddr, h.storeData rs2 hn]
  rcases h.store (b.accessAddr rs1 imm n) n (b.storeData rs2 n) with ⟨t, u, ha, hb, hlock⟩ | ⟨f, ha, hb⟩
  all_goals rw [ha, hb]
  · exact .next (hlock.setPc h.seqPc)
  · exact .fault f

/-! ## The System extension (46_srm64.md R277) -/

theorem Lockstep.sysret (h : Lockstep a b) : Follows (exec .sysret a) (exec .sysret b) := by
  simp only [exec, execSysret, h.kernel, h.spvg]
  split
  · split
    · exact .fault _
    · exact .next h.trapReturn
  · exact .fault _

/-- The checks of CSRW depend on the register size for `msr` alone. -/
theorem State.csrwFault_congr (s t : State) {n : Nat} (hn : n ≠ 0) (v : Word64) :
    s.csrwFault n v = t.csrwFault n v := by
  simp [State.csrwFault, hn]

/-- What SRM32 may write to `msr` has bit 1, which is Q on SRM64, at 0. -/
theorem getLsbD_one_of_msrLimit {v : Word64} (hv : v.toNat < msrLimit .x32) : v.getLsbD 1 = false := by
  have hlt : v.toNat < 2 := hv
  rw [BitVec.getLsbD, Nat.testBit_eq_decide_div_mod_eq, decide_eq_false_iff_not]
  omega

theorem Lockstep.csrw (h : Lockstep a b) (rs1 : RegNum) (n : CsrNum) :
    Follows (exec (.csrw rs1 n) a) (exec (.csrw rs1 n) b) := by
  simp only [exec, execCsrw, h.kernel, h.src_zext]
  generalize (b.src rs1).setWidth 64 = v
  split
  · by_cases hn : n.toNat = 0
    · by_cases hv : v.toNat < msrLimit .x32
      · have hv64 : v.toNat < msrLimit .x64 := hv.trans (by decide)
        rw [State.csrwFault_eq_none (by omega) (fun _ => h.xlen_left ▸ hv) (by omega),
          State.csrwFault_eq_none (by omega) (fun _ => h.xlen ▸ hv64) (by omega)]
        exact .next ((h.setCsr _ rfl fun _ => getLsbD_one_of_msrLimit hv).setPc h.seqPc)
      · rw [hn, State.csrwFault_reserved_msr (h.xlen_left ▸ not_lt.mp hv)]
        exact .reserved (.inr rfl) _
    · rw [a.csrwFault_congr b hn]
      split
      · exact .fault _
      · exact .next ((h.setCsr _ rfl fun h0 => absurd h0 hn).setPc h.seqPc)
  · exact .next (h.setPc h.seqPc)

theorem Lockstep.csrr (h : Lockstep a b) (rd : RegNum) (n : CsrNum) :
    Follows (exec (.csrr rd n) a) (exec (.csrr rd n) b) := by
  simp only [exec, execCsrr, h.kernel, h.csr]
  split
  · split
    · exact .fault _
    · exact h.retire _ _ (by rw [BitVec.toNat_setWidth, BitVec.toNat_setWidth, h.opWidth])
  · exact h.retire _ _ (by simp)

/-! ## Every instruction of SRM32 -/

/-- Where SRM32 has the instruction, the SRM64 hart with Q = 0 follows it (46_srm64.md R273). -/
theorem exec_follows (h : Lockstep a b) {i : Instr} (hi : i.needs ≠ .srm64) :
    Follows (exec i a) (exec i b) := by
  cases i
  case add => exact h.compute (fun _ x y => x + y) (h.src _) (h.src _)
  case sub => exact h.compute (fun _ x y => x - y) (h.src _) (h.src _)
  case and => exact h.compute (fun _ x y => x &&& y) (h.src _) (h.src _)
  case or => exact h.compute (fun _ x y => x ||| y) (h.src _) (h.src _)
  case xor => exact h.compute (fun _ x y => x ^^^ y) (h.src _) (h.src _)
  case shr => exact h.computeIn (fun c _ => shift c .shr) (fun _ => rfl) (h.src _) (h.src _)
  case asr => exact h.computeIn (fun c _ => shift c .asr) (fun _ => rfl) (h.src _) (h.src _)
  case shl => exact h.computeIn (fun c _ => shift c .shl) (fun _ => rfl) (h.src _) (h.src _)
  case cch => exact h.compute (fun _ => carryOut) (h.src _) (h.src _)
  case bch => exact h.compute (fun _ => borrowOut) (h.src _) (h.src _)
  case addi => exact h.compute (fun _ x y => x + y) (h.src _) (h.immW _)
  case andi => exact h.compute (fun _ x y => x &&& y) (h.src _) (h.immW _)
  case ori => exact h.compute (fun _ x y => x ||| y) (h.src _) (h.immW _)
  case xori => exact h.compute (fun _ x y => x ^^^ y) (h.src _) (h.immW _)
  case shri => exact h.computeIn (fun c _ => shift c .shr) (fun _ => rfl) (h.src _) (h.immW _)
  case asri => exact h.computeIn (fun c _ => shift c .asr) (fun _ => rfl) (h.src _) (h.immW _)
  case shli => exact h.computeIn (fun c _ => shift c .shl) (fun _ => rfl) (h.src _) (h.immW _)
  case cchi => exact h.compute (fun _ => carryOut) (h.src _) (h.immW _)
  case bchi => exact h.compute (fun _ => borrowOut) (h.src _) (h.immW _)
  case lui imm => exact h.compute (fun _ x _ => x <<< 11) (h.immW imm) (h.immW imm)
  case mul => exact h.compute (fun _ => mulLow) (h.src _) (h.src _)
  case smul => exact h.compute (fun _ => smulLow) (h.src _) (h.src _)
  case mulh => exact h.compute (fun _ => mulHigh) (h.src _) (h.src _)
  case smulh => exact h.compute (fun _ => smulHigh) (h.src _) (h.src _)
  case div => exact h.computeIn (fun c _ => divQuot c) (fun _ => rfl) (h.src _) (h.src _)
  case sdiv => exact h.computeIn (fun c _ => sdivQuot c) (fun _ => rfl) (h.src _) (h.src _)
  case mod => exact h.computeIn (fun c _ => divRem c) (fun _ => rfl) (h.src _) (h.src _)
  case smod => exact h.computeIn (fun c _ => sdivRem c) (fun _ => rfl) (h.src _) (h.src _)
  case jal => exact h.jumpLink (h.relTarget _)
  case jalr => exact h.jumpLink (toNat_congr h.opWidth (fun _ x y => x + y) (h.src _) (h.immW _))
  case jeq => exact h.condJump _ _ _ fun _ x y => decide (x = y)
  case jlt => exact h.condJump _ _ _ fun _ => unsignedLess
  case jslt => exact h.condJump _ _ _ fun _ => signedLess
  case jne => exact h.condJump _ _ _ fun _ x y => decide (x ≠ y)
  case jge => exact h.condJump _ _ _ fun _ x y => !unsignedLess x y
  case jsge => exact h.condJump _ _ _ fun _ x y => !signedLess x y
  case ldb | ldw | ldd | ldsb | ldsw => exact h.loadTo _ _ _ _ _
  case stb | stw | std => exact h.storeFrom _ _ _ (by decide)
  case syscall => exact .next (h.takeTrap .systemCall h.seqPc)
  case sysret => exact h.sysret
  case csrw => exact h.csrw _ _
  case csrr => exact h.csrr _ _
  case ldq | ldsd | stq => exact absurd rfl hi

/-! ## The boundary and the environment (60_exceptions.md R363) -/

/-- The timer writes `csr9` and may leave a request due. -/
theorem State.timerTick_eq_setCsr (s : State) (i : EnvInput) :
    s.timerTick i = { s.setCsr 9 (s.timerTick i).pcst with timerDue := (s.timerTick i).timerDue } := by
  unfold State.timerTick
  split
  · rfl
  · split <;> rfl
  · rfl

theorem Lockstep.timerValue (h : Lockstep a b) {i : EnvInput} (hi : ∀ v, i.timer = some v → v.toNat < 2 ^ 32) :
    a.timerValue i = b.timerValue i := by
  have hpcsTimer : a.cfg.pcsTimer = b.cfg.pcsTimer := by rw [h.cfg]
  rw [State.timerValue, State.timerValue, hpcsTimer, h.pcst, h.pcstrv]
  cases b.cfg.pcsTimer with
  | absent | countdown => rfl
  | platform =>
    cases ht : i.timer with
    | none => rfl
    | some v =>
      dsimp only
      rw [← Config.fit_toNat, ← Config.fit_toNat, h.fit (hi v ht)]

theorem Lockstep.timerTick (h : Lockstep a b) {i : EnvInput} (hi : ∀ v, i.timer = some v → v.toNat < 2 ^ 32) :
    Lockstep (a.timerTick i) (b.timerTick i) := by
  have hpcst : (a.timerTick i).pcst = (b.timerTick i).pcst := BitVec.eq_of_toNat_eq (by
    rw [State.timerTick_pcst_toNat, State.timerTick_pcst_toNat, h.timerValue hi])
  have hdue : (a.timerTick i).timerDue = (b.timerTick i).timerDue := by
    rw [State.timerTick_timerDue, State.timerTick_timerDue, State.timerDueNow, State.timerDueNow, h.timerDue, h.cfg,
      h.pcst]
  rw [a.timerTick_eq_setCsr, b.timerTick_eq_setCsr]
  exact { h.setCsr 9 hpcst (by simp) with timerDue := hdue }

theorem Lockstep.asyncRet (h : Lockstep a b) (x : Word64) :
    (a.asyncRet x a.pc).toNat = (b.asyncRet x b.pc).toNat := by
  rw [State.asyncRet_toNat, State.asyncRet_toNat, State.asyncRetNat, State.asyncRetNat, h.opWidth, h.cfg, h.pc]

theorem Lockstep.takeExternal (h : Lockstep a b) (x : Word64) {cause : Word64} (hc : cause.toNat < 2 ^ 32) :
    Lockstep (a.takeExternal x cause) (b.takeExternal x cause) :=
  { (h.takeTrap .external (h.asyncRet x)).setCsr 4 (h.fit hc) (by simp) with
    irq := rfl
    irq32 := fun _ hirq => by cases hirq }

theorem Lockstep.takeContextSwitch (h : Lockstep a b) (x : Word64) :
    Lockstep (a.takeContextSwitch x) (b.takeContextSwitch x) :=
  { h.takeTrap .contextSwitch (h.asyncRet x) with timerDue := rfl }

theorem Lockstep.timerWants (h : Lockstep a b) : a.timerWants = b.timerWants := by
  rw [State.timerWants, State.timerWants, h.timerDue, h.ei, h.cfg]

theorem Lockstep.takeAsync (h : Lockstep a b) (x : Word64) : Lockstep (a.takeAsync x) (b.takeAsync x) := by
  rw [State.takeAsync, State.takeAsync, h.ei, h.irq, h.timerWants]
  split
  · rename_i cause _ hirq
    exact h.takeExternal x (h.irq32 cause hirq)
  · split
    · exact h.takeContextSwitch x
    · exact h

theorem Lockstep.boundary (h : Lockstep a b) (x : Word64) {i : EnvInput}
    (hi : ∀ v, i.timer = some v → v.toNat < 2 ^ 32) : Lockstep (a.boundary x i) (b.boundary x i) := by
  have hs : a.cfg.extS = true := by rw [h.cfg, h.extS]
  rw [State.boundary, State.boundary, if_pos hs, if_pos h.extS]
  exact (h.timerTick hi).takeAsync x

theorem Lockstep.applyIrq (h : Lockstep a b) {c : IrqChange} (hc : ∀ cause, c = .raise cause → cause.toNat < 2 ^ 32) :
    Lockstep (a.applyIrq c) (b.applyIrq c) := by
  cases c with
  | keep => exact h
  | raise cause =>
    refine { h with irq := rfl, irq32 := fun _ hirq => ?_ }
    cases hirq
    exact hc cause rfl
  | withdraw => exact { h with irq := rfl, irq32 := fun _ hirq => by cases hirq }

/-- What the environment does in this step is made for an SRM32 hart. -/
theorem Lockstep.input32 (h : Lockstep a b) :
    (∀ v, b.input.timer = some v → v.toNat < 2 ^ 32) ∧ ∀ c, b.input.irq = .raise c → c.toNat < 2 ^ 32 := by
  unfold State.input
  split
  · exact ⟨fun _ hv => (nomatch hv), fun _ hc => (nomatch hc)⟩
  · rename_i e rest he
    exact h.inputs32 e (he ▸ List.mem_cons_self)

theorem Lockstep.finishStep (h : Lockstep a b) (x : Word64) : Lockstep (a.finishStep x) (b.finishStep x) := by
  have hinput : a.input = b.input := by rw [State.input, State.input, h.inputs]
  obtain ⟨htimer, hirq⟩ := h.input32
  rw [State.finishStep, State.finishStep, hinput]
  exact
    { ((h.boundary x htimer).applyIrq hirq).writeCells b.input.pokes with
      inputs := congrArg List.tail h.inputs
      inputs32 := fun e he => h.inputs32 e (List.mem_of_mem_tail he) }

/-! ## Fetch and decoding (46_srm64.md R274, R276) -/

theorem Lockstep.executable (h : Lockstep a b) (x : Nat) : a.cfg.executable x = b.cfg.executable x := by
  simp only [Config.executable, h.cfg]

theorem Lockstep.valid (h : Lockstep a b) : a.cfg.valid = b.cfg.valid := by
  simp [Config.valid, h.executable, h.xlen_left, h.extS]

theorem Lockstep.fetchBytes (h : Lockstep a b) : a.fetchBytes = b.fetchBytes := by
  have hfetchable : ∀ x n, a.fetchable x n = b.fetchable x n := by simp [State.fetchable, h.executable]
  have hread : a.mem.read = b.mem.read := funext h.read
  rw [State.fetchBytes, State.fetchBytes, h.ip, hfetchable, hread]

/-- An instruction that SRM32 has is one that SRM64 has in the same configuration but for the register size. -/
theorem Needs.met_of_x32 {n : Needs} {c : Config} (h : n.met { c with xlen := .x32 } = true) :
    n ≠ .srm64 ∧ n.met c = true := by
  cases n with
  | base | system | mulDiv => exact ⟨by decide, h⟩
  | srm64 => cases h

theorem decode_of_x32 {c : Config} {w : InstrWord} {i : Instr} (h : decode { c with xlen := .x32 } w = .ok i) :
    i.needs ≠ .srm64 ∧ decode c w = .ok i := by
  obtain ⟨hraw, hneeds, hregs⟩ := decode_ok h
  obtain ⟨hne, hmet⟩ := Needs.met_of_x32 hneeds
  have hregs' : i.regsExist c = true := hregs
  have hraw' : rawDecode c.csrField w = .ok i := hraw
  exact ⟨hne, by simp [decode, hraw', hmet, hregs']⟩

theorem decodeBytes_of_x32 {c : Config} {bytes rest : List Byte} {i : Instr}
    (h : decodeBytes { c with xlen := .x32 } bytes = .ok (i, rest)) :
    i.needs ≠ .srm64 ∧ decodeBytes c bytes = .ok (i, rest) := by
  obtain ⟨b0, b1, b2, b3, rfl, hdecode⟩ := decodeBytes_ok h
  obtain ⟨hne, hdecode'⟩ := decode_of_x32 hdecode
  exact ⟨hne, by simp [decodeBytes, hdecode']⟩

/-! ## The step -/

/-- Whatever SRM32's step answers, the step of the SRM64 hart with Q = 0 follows it. -/
theorem step_follows (h : Lockstep a b) : Follows (step a) (step b) := by
  rw [step, step, h.valid, h.ip, h.fetchBytes]
  split
  · exact .refused _
  split
  · exact .fault _
  split
  · exact .fault _
  rename_i bytes _
  cases hdecode : decodeBytes a.cfg bytes with
  | error e => exact .reserved (.inl rfl) _
  | ok decoded =>
    obtain ⟨i, rest⟩ := decoded
    rw [h.cfg] at hdecode
    obtain ⟨hi, hdecode'⟩ := decodeBytes_of_x32 hdecode
    have hexec := exec_follows h hi
    rw [hdecode']
    dsimp only
    generalize exec i a = r at hexec ⊢
    generalize exec i b = r' at hexec ⊢
    cases hexec with
    | next hnext => exact .next (hnext.finishStep b.ip)
    | fault f => exact .fault f
    | reserved hf _ => exact .reserved hf _
    | refused r => exact .refused r

end

/-- Settles O60: the SRM64 hart follows SRM32 in every instruction and in every step. -/
theorem srm64RunsSrm32Code : Obligations.Srm64RunsSrm32Code := by
  refine ⟨fun a b t i hsim hi hexec => ?exec, fun a b t hsim hstep => ?step,
    fun a b f hsim hstep he hv => ?fault⟩ <;> rw [srm32Sim_iff_lockstep] at hsim
  case exec => exact (exec_follows hsim hi).of_next hexec
  case step => exact (step_follows hsim).of_next hstep
  case fault => exact (step_follows hsim).of_fault hstep he hv

end Sys2Proof.Machine
end

section
/-! # The family of the register reduction: what the assembler places, and `r16` to `r31` (47_ext_h.md)

`PlacedBy` says of an instruction, with no configuration named, what one of the assembler's short forms may place:
base instructions, or those of M, on the registers of the line and on registers that every configuration has. Each
expansion is shown to place only such instructions; `PlacedBy.wellFormed` is the one place where a configuration comes
in. -/

namespace Sys2Proof

/-! ## The registers of a configuration (47_ext_h.md R300, R301) -/

/-- With or without the register reduction `r0` to `r15` exist. -/
theorem Config.le_nregs (c : Config) : 16 ≤ c.nregs := by
  unfold Config.nregs
  split <;> decide

theorem Config.nregs_of_extH {c : Config} (h : c.extH = true) : c.nregs = 16 := if_pos h

theorem Instr.regsExist_iff (i : Instr) (c : Config) : i.regsExist c = true ↔ ∀ r ∈ i.regs, r.toNat < c.nregs := by
  simp [Instr.regsExist]

/-- The encoding limits the CSR number alone, so it takes every instruction but CSRW and CSRR. -/
theorem Instr.csrEncodable_of_needs_ne_system {i : Instr} (h : i.needs ≠ .system) (f : CsrField) :
    i.csrEncodable f = true := by
  cases i
  case csrw | csrr => exact absurd rfl h
  all_goals rfl

theorem Instr.mem_regs_of_loadDest {i : Instr} {rd : RegNum} (h : i.loadDest = some rd) : rd ∈ i.regs := by
  cases i
  case ldb | ldw | ldd | ldq | ldsb | ldsw | ldsd =>
    cases h
    exact List.mem_cons_self
  all_goals cases h

end Sys2Proof

namespace Sys2Proof.Machine

/-! ## What an expansion may place -/

/-- A register that the line names, or one that every configuration has. -/
def Available (named : List RegNum) (r : RegNum) : Prop := r ∈ named ∨ r.toNat < 16

/-- The instruction is one that a line which names the registers `named` may place, a line of the M extension where
`usesM` is true. -/
structure PlacedBy (usesM : Bool) (named : List RegNum) (i : Instr) : Prop where
  needs : i.needs = .base ∨ i.needs = .mulDiv ∧ usesM = true
  regs : ∀ r ∈ i.regs, Available named r

section
variable {usesM : Bool} {named : List RegNum} {rd : RegNum} {i : Instr}

theorem Available.lt_nregs {c : Config} {r : RegNum} (h : Available named r) (hnamed : ∀ r ∈ named, r.toNat < c.nregs) :
    r.toNat < c.nregs := by
  rcases h with hmem | hlow
  · exact hnamed r hmem
  · exact hlow.trans_le c.le_nregs

@[simp] theorem available_of_mem {r : RegNum} (h : r ∈ named) : Available named r := .inl h

@[simp] theorem available_zr : Available named zr := .inr (by decide)

@[simp] theorem available_atReg : Available named atReg := .inr (by decide)

@[simp] theorem available_rp : Available named rp := .inr (by decide)

@[simp] theorem available_sp : Available named sp := .inr (by decide)

theorem PlacedBy.of_base (hneeds : i.needs = .base) (hregs : ∀ r ∈ i.regs, Available named r) :
    PlacedBy usesM named i :=
  ⟨.inl hneeds, hregs⟩

theorem PlacedBy.of_mulDiv (hneeds : i.needs = .mulDiv) (hregs : ∀ r ∈ i.regs, Available named r) :
    PlacedBy true named i :=
  ⟨.inr ⟨hneeds, rfl⟩, hregs⟩

/-- What a line may place exists in every configuration that has the line's registers and, for a line of M, has M. -/
theorem PlacedBy.wellFormed {c : Config} (h : PlacedBy usesM named i) (hnamed : ∀ r ∈ named, r.toNat < c.nregs)
    (hM : usesM = true → c.extM = true) : i.wellFormed c = true := by
  have hregs : i.regsExist c = true := (i.regsExist_iff c).mpr fun r hr => (h.regs r hr).lt_nregs hnamed
  rcases h.needs with hneeds | ⟨hneeds, hm⟩
  · simp [Instr.wellFormed, hregs, i.csrEncodable_of_needs_ne_system, hneeds, Needs.met]
  · simp [Instr.wellFormed, hregs, i.csrEncodable_of_needs_ne_system, hneeds, Needs.met, hM hm]

/-! ## `Pseudo.expand` (44_pseudo_macro.md R204 to R217) -/

theorem Pseudo.expand_placedBy (p : Pseudo) : PlacedBy false p.regs p.expand := by
  cases p
  all_goals exact .of_base rfl (by simp [Pseudo.expand, Pseudo.regs, Instr.regs])

/-! ## The parts of `Macro.expand` (44_pseudo_macro.md R231 to R241) -/

theorem addi_placedBy {rs1 : RegNum} (hrd : Available named rd) (hrs1 : Available named rs1) (imm : Imm12) :
    PlacedBy usesM named (.addi rd rs1 imm) :=
  .of_base rfl (by simp [Instr.regs, hrd, hrs1])

theorem addAt_placedBy (hrd : Available named rd) : PlacedBy usesM named (.add rd rd atReg) :=
  .of_base rfl (by simp [Instr.regs, hrd])

theorem placedBy_pair {j : Instr} (hi : PlacedBy usesM named i) (hj : PlacedBy usesM named j) :
    ∀ k ∈ [i, j], PlacedBy usesM named k :=
  List.forall_mem_cons.mpr ⟨hi, List.forall_mem_singleton.mpr hj⟩

/-- LDI is one XOR, one ADDI, or LUI with or without an ADDI. -/
theorem expandLdi_placedBy (hrd : Available named rd) (c : BitVec 32) :
    ∀ i ∈ expandLdi rd c, PlacedBy usesM named i := by
  have hlui : PlacedBy usesM named (.lui rd (c.extractLsb' 11 21)) := .of_base rfl (by simp [Instr.regs, hrd])
  unfold expandLdi
  dsimp only
  split
  · exact List.forall_mem_singleton.mpr (.of_base rfl (by simp [Instr.regs, hrd]))
  split
  · exact List.forall_mem_singleton.mpr (addi_placedBy hrd available_zr _)
  split
  · exact List.forall_mem_singleton.mpr hlui
  · exact placedBy_pair hlui (addi_placedBy hrd hrd _)

theorem pushStores_placedBy {rs : List RegNum} (hrs : ∀ r ∈ rs, Available named r) (off : Int) :
    ∀ i ∈ pushStores off rs, PlacedBy usesM named i := by
  induction rs generalizing off with
  | nil => simp [pushStores]
  | cons r rs ih =>
    obtain ⟨hr, hrs⟩ := List.forall_mem_cons.mp hrs
    exact List.forall_mem_cons.mpr ⟨.of_base rfl (by simp [Instr.regs, hr]), ih hrs _⟩

theorem popLoads_placedBy {rs : List RegNum} (hrs : ∀ r ∈ rs, Available named r) (off : Int) :
    ∀ i ∈ popLoads off rs, PlacedBy usesM named i := by
  induction rs generalizing off with
  | nil => simp [popLoads]
  | cons r rs ih =>
    obtain ⟨hr, hrs⟩ := List.forall_mem_cons.mp hrs
    exact List.forall_mem_cons.mpr ⟨.of_base rfl (by simp [Instr.regs, hr]), ih hrs _⟩

theorem expandBitOp_placedBy {short : Imm12 → Instr} {long : Instr} (hshort : ∀ imm, PlacedBy usesM named (short imm))
    (hlong : PlacedBy usesM named long) (mask : BitVec 32) (bit : BitVec 5) :
    ∀ i ∈ expandBitOp short long mask bit, PlacedBy usesM named i := by
  unfold expandBitOp
  split
  · exact List.forall_mem_singleton.mpr (hshort _)
  · exact List.forall_mem_append.mpr
      ⟨expandLdi_placedBy available_atReg mask, List.forall_mem_singleton.mpr hlong⟩

/-! ## `Macro.expand` (44_pseudo_macro.md R230; 48_muldiv.md R320 to R322) -/

theorem LoadKind.load_needs (k : LoadKind) (rd rs1 : RegNum) (imm : Imm12) : (k.load rd rs1 imm).needs = .base := by
  cases k <;> rfl

theorem LoadKind.load_regs (k : LoadKind) (rd rs1 : RegNum) (imm : Imm12) : (k.load rd rs1 imm).regs = [rd, rs1] := by
  cases k <;> rfl

theorem StoreKind.store_needs (k : StoreKind) (rs2 rs1 : RegNum) (imm : Imm12) :
    (k.store rs2 rs1 imm).needs = .base := by
  cases k <;> rfl

theorem StoreKind.store_regs (k : StoreKind) (rs2 rs1 : RegNum) (imm : Imm12) :
    (k.store rs2 rs1 imm).regs = [rs1, rs2] := by
  cases k <;> rfl

theorem MulOp.instr_needs (o : MulOp) (rd rs1 rs2 : RegNum) : (o.instr rd rs1 rs2).needs = .mulDiv := by
  cases o <;> rfl

theorem MulOp.instr_regs (o : MulOp) (rd rs1 rs2 : RegNum) : (o.instr rd rs1 rs2).regs = [rd, rs1, rs2] := by
  cases o <;> rfl

end

theorem Macro.expand_placedBy {m : Macro} {l : List Instr} (h : m.expand = some l) :
    ∀ i ∈ l, PlacedBy m.usesM m.regs i := by
  cases m
  case push regs =>
    simp only [Macro.expand, Option.map_eq_some_iff] at h
    obtain ⟨a, -, rfl⟩ := h
    exact List.forall_mem_append.mpr
      ⟨pushStores_placedBy (fun _ => .inl) _, List.forall_mem_singleton.mpr (addi_placedBy available_sp available_sp a)⟩
  case pop regs =>
    simp only [Macro.expand, Option.map_eq_some_iff] at h
    obtain ⟨a, -, rfl⟩ := h
    exact List.forall_mem_append.mpr
      ⟨popLoads_placedBy (fun _ => .inl) _, List.forall_mem_singleton.mpr (addi_placedBy available_sp available_sp a)⟩
  all_goals obtain rfl := Option.some.inj h
  case ldi rd c => exact expandLdi_placedBy (by simp [Macro.regs]) c
  case xchg rs1 rs2 =>
    have hxor {r : RegNum} (hr : r ∈ [rs1, rs2]) : PlacedBy false [rs1, rs2] (.xor r rs1 rs2) :=
      .of_base rfl (by simp [Instr.regs, hr])
    exact List.forall_mem_cons.mpr ⟨hxor (by simp), placedBy_pair (hxor (by simp)) (hxor (by simp))⟩
  case ldUpdt k rd rs1 imm =>
    exact placedBy_pair (.of_base (k.load_needs ..) (by simp [LoadKind.load_regs, Macro.regs]))
      (addi_placedBy (by simp [Macro.regs]) (by simp [Macro.regs]) imm)
  case stUpdt k rs2 rs1 imm =>
    exact placedBy_pair (.of_base (k.store_needs ..) (by simp [StoreKind.store_regs, Macro.regs]))
      (addi_placedBy (by simp [Macro.regs]) (by simp [Macro.regs]) imm)
  case sslt rd rs1 rs2 | ssgt rd rs1 rs2 =>
    exact placedBy_pair (.of_base rfl (by simp [Instr.regs, Macro.regs]))
      (.of_base rfl (by simp [Instr.regs, Macro.regs]))
  case bst rd bit | bcl rd bit | bfl rd bit =>
    exact expandBitOp_placedBy (fun imm => .of_base rfl (by simp [Instr.regs, Macro.regs]))
      (.of_base rfl (by simp [Instr.regs, Macro.regs])) _ bit
  case mulImm o rd rs1 c =>
    refine List.forall_mem_append.mpr ⟨expandLdi_placedBy available_atReg c, List.forall_mem_singleton.mpr ?_⟩
    exact .of_mulDiv (o.instr_needs ..) (by simp [MulOp.instr_regs, Macro.regs])
  case madd rd rs1 rs2 | smadd rd rs1 rs2 =>
    exact placedBy_pair (.of_mulDiv rfl (by simp [Instr.regs, Macro.regs])) (addAt_placedBy (by simp [Macro.regs]))
  case maddi rd rs1 c | smaddi rd rs1 c =>
    refine List.forall_mem_append.mpr ⟨expandLdi_placedBy available_atReg c, ?_⟩
    exact placedBy_pair (.of_mulDiv rfl (by simp [Instr.regs, Macro.regs])) (addAt_placedBy (by simp [Macro.regs]))

/-- Settles O5: each expansion places only what `PlacedBy` allows, and that is well formed. -/
theorem expansionsAreWellFormed : Obligations.ExpansionsAreWellFormed :=
  ⟨fun _ p hregs => p.expand_placedBy.wellFormed hregs nofun,
    fun _ _ _ hexpand hregs hM i hi => (Macro.expand_placedBy hexpand i hi).wellFormed hregs hM⟩

/-! ## No step changes `r16` to `r31` -/

/-- An instruction that completes writes no register that it does not name. -/
theorem exec_reg_of_not_mem {i : Instr} {s t : State} {r : RegNum} (hexec : exec i s = .next t) (hr : r ∉ i.regs) :
    t.reg r = s.reg r := by
  cases exec_effect hexec with
  | writes rd v pc hrd =>
    have hne : r ≠ rd := fun e => hr (e ▸ hrd)
    simp [State.reg_writeW, hne]
  | loads rd rs1 imm n v cells hdest _ =>
    have hne : r ≠ rd := fun e => hr (e ▸ Instr.mem_regs_of_loadDest hdest)
    rw [State.reg_setPc, State.reg_setReg, if_neg fun e => hne e.1]
    exact State.reg_congr (by simp) r
  | jumps | stores | systemCall | systemReturn | csrWrite => exact State.reg_congr (by simp) r

/-- What the decoder accepts names registers of the configuration only (47_ext_h.md R301). -/
theorem decodeBytes_regs_lt {c : Config} {bytes rest : List Byte} {i : Instr}
    (h : decodeBytes c bytes = .ok (i, rest)) : ∀ r ∈ i.regs, r.toNat < c.nregs := by
  obtain ⟨_, _, _, _, -, hdecode⟩ := decodeBytes_ok h
  obtain ⟨-, -, hregs⟩ := decode_ok hdecode
  exact (i.regsExist_iff c).mp hregs

/-- A step leaves every register alone that the configuration does not have. -/
theorem step_reg_of_nregs_le {s t : State} {r : RegNum} (hstep : step s = .next t) (hr : s.cfg.nregs ≤ r.toNat) :
    t.reg r = s.reg r := by
  obtain ⟨_, i, _, u, -, -, -, hdecode, hexec, rfl⟩ := step_next hstep
  have hnot : r ∉ i.regs := fun hmem => hr.not_gt (decodeBytes_regs_lt hdecode r hmem)
  calc (u.finishStep s.ip).reg r = u.reg r := State.reg_congr (by simp) r
    _ = s.reg r := exec_reg_of_not_mem hexec hnot

/-- Settles O59: with the register reduction `r16` to `r31` are the registers that the configuration does not have. -/
theorem removedRegistersNeverChange : Obligations.RemovedRegistersNeverChange :=
  fun _ _ _ hH hstep hr => step_reg_of_nregs_le hstep ((Config.nregs_of_extH hH).trans_le hr)

end Sys2Proof.Machine
end

section
/-! # The family of multiply and divide: products, quotients and remainders (48_muldiv.md)

Every instruction of the family is a `retire`, so `Computes.of_retire` leaves only the number of its result. MUL and SMUL
retire the same value, and what differs between two retires of one value is the upper half that `Q0_UPPER` leaves open.
The four divisions are one instruction indexed by `DivOp`: what R319 (c) says of a divisor of 0 is then said once. -/

namespace Sys2Proof

/-- The instruction of a division operation. -/
def DivOp.instr (op : DivOp) (rd rs1 rs2 : RegNum) : Instr :=
  match op with
  | .div => .div rd rs1 rs2
  | .sdiv => .sdiv rd rs1 rs2
  | .mod => .mod rd rs1 rs2
  | .smod => .smod rd rs1 rs2

end Sys2Proof

namespace Sys2Proof.Machine

/-! ## Products (48_muldiv.md R311 to R314, R319 (a)) -/

/-- An integer brought to the operating width, as a number. -/
theorem State.toNat_ofInt (s : State) (v : Int) : (BitVec.ofInt s.opWidth v).toNat = s.wrap v :=
  BitVec.toNat_ofInt v

theorem mulLow_eq_mul {w : Nat} (a b : BitVec w) : mulLow a b = a * b :=
  BitVec.eq_of_toNat_eq (by rw [mulLow, BitVec.toNat_ofNat, BitVec.toNat_mul])

theorem smulLow_eq_mul {w : Nat} (a b : BitVec w) : smulLow a b = a * b := by
  rw [smulLow, BitVec.ofInt_mul, BitVec.ofInt_toInt, BitVec.ofInt_toInt]

/-- The high half of the unsigned product fits the width. -/
theorem mulHigh_toNat {w : Nat} (a b : BitVec w) : (mulHigh a b).toNat = a.toNat * b.toNat / 2 ^ w := by
  have hfits : a.toNat * b.toNat / 2 ^ w < 2 ^ w := Nat.div_lt_of_lt_mul (Nat.mul_lt_mul'' a.isLt b.isLt)
  rw [mulHigh, BitVec.toNat_ofNat, Nat.mod_eq_of_lt hfits]

/-- Rounding down is Euclidean division where the divisor is positive. -/
theorem smulHigh_eq {w : Nat} (a b : BitVec w) :
    smulHigh a b = BitVec.ofInt w (a.toInt * b.toInt / (2 ^ w : Nat)) := by
  rw [smulHigh, Int.fdiv_eq_ediv_of_nonneg _ (by positivity), Int.natCast_pow, Nat.cast_ofNat]

/-- Settles O20: the number of each product's half. -/
theorem multiplyResults : Obligations.MultiplyResults := by
  intro s rd rs1 rs2
  refine ⟨.of_retire rfl ?mul, .of_retire rfl ?smul, .of_retire rfl ?mulh, .of_retire rfl ?smulh⟩
  case mul => rw [mulLow_eq_mul, BitVec.toNat_mul, State.src_toNat, State.src_toNat]
  case smul => rw [smulLow, State.toNat_ofInt, State.src_toInt, State.src_toInt]
  case mulh => rw [mulHigh_toNat, State.src_toNat, State.src_toNat]
  case smulh => rw [smulHigh_eq, State.toNat_ofInt, State.src_toInt, State.src_toInt]

/-! ## One value retired by two instructions (46_srm64.md R272) -/

section
variable {s : State} (i j : Instr) (rd : RegNum) (v : BitVec s.opWidth)

/-- A named candidate of `Q0_UPPER` does not look at the instruction. -/
theorem State.upperHalf_congr (hq : s.cfg.q0Upper ≠ .any) (old : Word64) (r : BitVec 32) :
    s.upperHalf i old r = s.upperHalf j old r := by
  cases hc : s.cfg.q0Upper with
  | any => exact absurd hc hq
  | sext | zext | keep => simp only [State.upperHalf, hc]

/-- `WriteW` depends on the instruction only where `Q0_UPPER` is open and the result is narrow. -/
theorem State.writeW_congr (h : s.narrow = false ∨ s.cfg.q0Upper ≠ .any) : s.writeW i rd v = s.writeW j rd v := by
  unfold State.writeW
  rcases h with hwide | hq
  · rw [hwide]
    rfl
  · rw [State.upperHalf_congr i j hq]

theorem State.reg_writeW_congr {r : RegNum} (hr : r ≠ rd) : (s.writeW i rd v).reg r = (s.writeW j rd v).reg r := by
  obtain ⟨hi, -, -⟩ := s.writeW_regWritten i rd v
  obtain ⟨hj, -, -⟩ := s.writeW_regWritten j rd v
  exact (hi r hr).trans (hj r hr).symm

/-- The low `W` bits of every register are the same, whatever `Q0_UPPER` is. -/
theorem State.reg_writeW_low_congr (r : RegNum) :
    ((s.writeW i rd v).reg r).toNat % 2 ^ s.opWidth = ((s.writeW j rd v).reg r).toNat % 2 ^ s.opWidth := by
  by_cases hr : r = rd
  · subst hr
    by_cases h0 : r = 0
    · rw [h0, State.reg_zero, State.reg_zero]
    · obtain ⟨-, -, hi⟩ := s.writeW_regWritten i r v
      obtain ⟨-, -, hj⟩ := s.writeW_regWritten j r v
      exact (hi h0).1.trans (hj h0).1.symm
  · rw [State.reg_writeW_congr i j rd v hr]

end

/-- MUL and SMUL retire one value. -/
theorem exec_smul_eq_retire (s : State) (rd rs1 rs2 : RegNum) :
    exec (.smul rd rs1 rs2) s = s.retire (.smul rd rs1 rs2) rd (mulLow (s.src rs1) (s.src rs2)) := by
  rw [mulLow_eq_mul, ← smulLow_eq_mul]
  rfl

/-- Settles O21: two retires of one value. -/
theorem mulAndSmulAgree : Obligations.MulAndSmulAgree := by
  intro s rd rs1 rs2
  refine ⟨_, _, rfl, exec_smul_eq_retire s rd rs1 rs2, ?low, ?other, ?pc, ?csrs, ?platform, ?memory, ?events, ?whole⟩
  case low => exact fun r => State.reg_writeW_low_congr _ _ rd _ r
  case other => exact fun r hr => State.reg_writeW_congr _ _ rd _ hr
  case pc => simp
  case csrs => simp [SameCsrs]
  case platform => simp [SamePlatform]
  case memory => simp [SameMemory]
  case events => simp
  case whole => exact fun h => congrArg (·.setPc s.seqPc) (State.writeW_congr _ _ rd _ h)

/-! ## The four divisions as one instruction -/

/-- The result of a division operation (48_muldiv.md R315 to R318). -/
def divResult {w : Nat} (c : Config) (op : DivOp) (a b : BitVec w) : BitVec w :=
  match op with
  | .div => divQuot c a b
  | .sdiv => sdivQuot c a b
  | .mod => divRem c a b
  | .smod => sdivRem c a b

theorem exec_divOp (op : DivOp) (s : State) (rd rs1 rs2 : RegNum) :
    exec (op.instr rd rs1 rs2) s =
      s.retire (op.instr rd rs1 rs2) rd (divResult s.cfg op (s.src rs1) (s.src rs2)) := by
  cases op <;> rfl

/-- A division instruction computes the number of its operation's result. -/
theorem Computes.of_divResult {s : State} {rs1 rs2 : RegNum} {n : Nat} (op : DivOp) (rd : RegNum)
    (hn : (divResult s.cfg op (s.src rs1) (s.src rs2)).toNat = n) : Computes (op.instr rd rs1 rs2) s rd n :=
  .of_retire (exec_divOp op s rd rs1 rs2) hn

/-! ## A divisor other than 0 (48_muldiv.md R315 to R318, R319 (b)) -/

theorem divResult_div_toNat {w : Nat} (c : Config) (a : BitVec w) {b : BitVec w} (hb : b.toNat ≠ 0) :
    (divResult c .div a b).toNat = a.toNat / b.toNat := by
  have hfits : a.toNat / b.toNat < 2 ^ w := (Nat.div_le_self _ _).trans_lt a.isLt
  rw [divResult, divQuot, if_pos hb, BitVec.toNat_ofNat, Nat.mod_eq_of_lt hfits]

theorem divResult_mod_toNat {w : Nat} (c : Config) (a : BitVec w) {b : BitVec w} (hb : b.toNat ≠ 0) :
    (divResult c .mod a b).toNat = a.toNat % b.toNat := by
  have hfits : a.toNat % b.toNat < 2 ^ w := Nat.mod_lt_of_lt a.isLt
  rw [divResult, divRem, if_pos hb, ← Nat.mod_eq_sub_div_mul, BitVec.toNat_ofNat, Nat.mod_eq_of_lt hfits]

/-- Settles O22: quotient and remainder fit the width. -/
theorem unsignedDivisionResults : Obligations.UnsignedDivisionResults := by
  intro s rd rs1 rs2 hb
  rw [← State.src_toNat] at hb
  refine ⟨.of_divResult .div rd ?div, .of_divResult .mod rd ?mod⟩
  case div => rw [divResult_div_toNat _ _ hb, State.src_toNat, State.src_toNat]
  case mod => rw [divResult_mod_toNat _ _ hb, State.src_toNat, State.src_toNat]

theorem toInt_eq_zero_iff_toNat {w : Nat} (b : BitVec w) : b.toInt = 0 ↔ b.toNat = 0 := by
  rw [← BitVec.toInt_zero (w := w), BitVec.toInt_inj, BitVec.toNat_eq, BitVec.toNat_zero]

/-- The most negative value and -1, as numbers (48_muldiv.md R319 (d)). -/
theorem divOverflows_iff {w : Nat} (hw : 0 < w) (a b : BitVec w) :
    divOverflows a b = true ↔ a.toNat = 2 ^ (w - 1) ∧ b.toNat = 2 ^ w - 1 := by
  have hmin : a.toInt = -(2 ^ (w - 1)) ↔ a.toNat = 2 ^ (w - 1) := by
    rw [← BitVec.toInt_intMin_of_pos hw, BitVec.toInt_inj, BitVec.toNat_eq, BitVec.toNat_intMin_of_pos hw]
  have hones : b.toInt = -1 ↔ b.toNat = 2 ^ w - 1 := by
    have hval : (BitVec.allOnes w).toInt = -1 := by rw [BitVec.toInt_allOnes, if_pos hw]
    rw [← hval, BitVec.toInt_inj, BitVec.toNat_eq, BitVec.toNat_allOnes]
  rw [divOverflows, Bool.and_eq_true, decide_eq_true_eq, decide_eq_true_eq, hmin, hones]

theorem State.divOverflows_src (s : State) (rs1 rs2 : RegNum) :
    divOverflows (s.src rs1) (s.src rs2) = true ↔ s.u rs1 = 2 ^ (s.opWidth - 1) ∧ s.u rs2 = 2 ^ s.opWidth - 1 := by
  rw [divOverflows_iff s.opWidth_pos, State.src_toNat, State.src_toNat]

theorem divResult_sdiv {w : Nat} (c : Config) {a b : BitVec w} (hb : b.toNat ≠ 0) (ho : ¬divOverflows a b = true) :
    divResult c .sdiv a b = BitVec.ofInt w (a.toInt.tdiv b.toInt) := by
  rw [divResult, sdivQuot, if_neg (mt (toInt_eq_zero_iff_toNat b).mp hb), if_neg ho]

theorem divResult_smod {w : Nat} (c : Config) {a b : BitVec w} (hb : b.toNat ≠ 0) (ho : ¬divOverflows a b = true) :
    divResult c .smod a b = BitVec.ofInt w (a.toInt.tmod b.toInt) := by
  rw [divResult, sdivRem, if_neg (mt (toInt_eq_zero_iff_toNat b).mp hb), if_neg ho, Int.tmod_def, Int.mul_comm]

/-- Settles O23: outside the two exceptions the results are truncating division's. -/
theorem signedDivisionResults : Obligations.SignedDivisionResults := by
  intro s rd rs1 rs2 hb ho
  rw [← State.src_toNat] at hb
  rw [← State.divOverflows_src] at ho
  refine ⟨.of_divResult .sdiv rd ?sdiv, .of_divResult .smod rd ?smod⟩
  case sdiv => rw [divResult_sdiv _ hb ho, State.toNat_ofInt, State.src_toInt, State.src_toInt]
  case smod => rw [divResult_smod _ hb ho, State.toNat_ofInt, State.src_toInt, State.src_toInt]

/-! ## Division by 0 (48_muldiv.md R319 (c)) -/

/-- Each of the four operations takes `DIV_ZERO` for a divisor of 0. -/
theorem divResult_by_zero {w : Nat} (c : Config) (op : DivOp) (a : BitVec w) {b : BitVec w} (hb : b.toNat = 0) :
    divResult c op a b = divZero c op a := by
  have hint : b.toInt = 0 := (toInt_eq_zero_iff_toNat b).mpr hb
  cases op with
  | div => rw [divResult, divQuot, if_neg (not_not.mpr hb)]
  | sdiv => rw [divResult, sdivQuot, if_pos hint]
  | mod => rw [divResult, divRem, if_neg (not_not.mpr hb)]
  | smod => rw [divResult, sdivRem, if_pos hint]

/-- The free value of a division by 0 as a function of numbers (48_muldiv.md R319 (c); log entry 9). -/
def freeDivZeroNat (op : DivOp) (w a : Nat) : Nat := (Config.freeDivZero op w (BitVec.ofNat w a)).toNat

theorem State.ofNat_u (s : State) (r : RegNum) : BitVec.ofNat s.opWidth (s.u r) = s.src r := by
  rw [← State.src_toNat, BitVec.ofNat_toNat, BitVec.setWidth_eq]

section
variable {w : Nat} {c : Config} {op : DivOp} (a : BitVec w)

theorem divZero_of_any (hc : c.divZero = .any) : divZero c op a = Config.freeDivZero op w a := by
  cases op <;> simp only [divZero, hc]

theorem divZero_of_zero (hc : c.divZero = .zero) : divZero c op a = 0 := by
  cases op <;> simp only [divZero, hc]

theorem divZero_quotient_of_ones (hc : c.divZero = .onesAndDividend) (hop : op = .div ∨ op = .sdiv) :
    divZero c op a = BitVec.allOnes w := by
  rcases hop with rfl | rfl <;> simp only [divZero, hc]

theorem divZero_remainder_of_ones (hc : c.divZero = .onesAndDividend) (hop : op = .mod ∨ op = .smod) :
    divZero c op a = a := by
  rcases hop with rfl | rfl <;> simp only [divZero, hc]

end

section
variable {s : State} {rs1 rs2 : RegNum} (op : DivOp) (rd : RegNum)

theorem computes_divZero (hb : s.u rs2 = 0) :
    Computes (op.instr rd rs1 rs2) s rd (divZero s.cfg op (s.src rs1)).toNat :=
  .of_divResult op rd (by rw [divResult_by_zero _ _ _ ((s.src_toNat rs2).trans hb)])

theorem computes_divZero_any (hb : s.u rs2 = 0) (hc : s.cfg.divZero = .any) :
    Computes (op.instr rd rs1 rs2) s rd (freeDivZeroNat op s.opWidth (s.u rs1)) := by
  simpa only [divZero_of_any _ hc, freeDivZeroNat, State.ofNat_u] using computes_divZero (rs1 := rs1) op rd hb

theorem computes_divZero_zero (hb : s.u rs2 = 0) (hc : s.cfg.divZero = .zero) :
    Computes (op.instr rd rs1 rs2) s rd 0 := by
  simpa only [divZero_of_zero _ hc, BitVec.ofNat_eq_ofNat, BitVec.toNat_zero] using
    computes_divZero (rs1 := rs1) op rd hb

theorem computes_divZero_ones (hb : s.u rs2 = 0) (hc : s.cfg.divZero = .onesAndDividend)
    (hop : op = .div ∨ op = .sdiv) : Computes (op.instr rd rs1 rs2) s rd (2 ^ s.opWidth - 1) := by
  simpa only [divZero_quotient_of_ones _ hc hop, BitVec.toNat_allOnes] using computes_divZero (rs1 := rs1) op rd hb

theorem computes_divZero_dividend (hb : s.u rs2 = 0) (hc : s.cfg.divZero = .onesAndDividend)
    (hop : op = .mod ∨ op = .smod) : Computes (op.instr rd rs1 rs2) s rd (s.u rs1) := by
  simpa only [divZero_remainder_of_ones _ hc hop, State.src_toNat] using computes_divZero (rs1 := rs1) op rd hb

end

/-- Settles O24: the function is the free value. -/
theorem divisionByZeroCompletes : Obligations.DivisionByZeroCompletes := by
  refine ⟨freeDivZeroNat, fun s rd rs1 rs2 hb => ⟨fun hc => ?any, fun hc => ?ones, fun hc => ?zero⟩⟩
  case any =>
    exact ⟨computes_divZero_any .div rd hb hc, computes_divZero_any .sdiv rd hb hc,
      computes_divZero_any .mod rd hb hc, computes_divZero_any .smod rd hb hc⟩
  case ones =>
    exact ⟨computes_divZero_ones .div rd hb hc (.inl rfl), computes_divZero_ones .sdiv rd hb hc (.inr rfl),
      computes_divZero_dividend .mod rd hb hc (.inl rfl), computes_divZero_dividend .smod rd hb hc (.inr rfl)⟩
  case zero =>
    exact ⟨computes_divZero_zero .div rd hb hc, computes_divZero_zero .sdiv rd hb hc,
      computes_divZero_zero .mod rd hb hc, computes_divZero_zero .smod rd hb hc⟩

/-! ## The signed overflow (48_muldiv.md R319 (d)) -/

/-- -1 is not 0, so the overflow is no division by 0. -/
theorem toInt_ne_zero_of_divOverflows {w : Nat} {a b : BitVec w} (ho : divOverflows a b = true) : b.toInt ≠ 0 := by
  rw [divOverflows, Bool.and_eq_true, decide_eq_true_eq, decide_eq_true_eq] at ho
  omega

/-- Each of the two signed operations takes `DIV_OVERFLOW` for the overflow. -/
theorem divResult_overflow {w : Nat} (c : Config) {op : DivOp} {a b : BitVec w} (ho : divOverflows a b = true)
    (hop : op = .sdiv ∨ op = .smod) : divResult c op a b = divOverflow c op a := by
  have hb := toInt_ne_zero_of_divOverflows ho
  rcases hop with rfl | rfl
  · rw [divResult, sdivQuot, if_neg hb, if_pos ho]
  · rw [divResult, sdivRem, if_neg hb, if_pos ho]

/-- The free value of the overflow as a number (48_muldiv.md R319 (d); log entry 9). -/
def freeDivOverflowNat (op : DivOp) (w : Nat) : Nat := (Config.freeDivOverflow op w).toNat

theorem divOverflow_any_toNat {w : Nat} {c : Config} (op : DivOp) (a : BitVec w) (hc : c.divOverflow = .any) :
    (divOverflow c op a).toNat = freeDivOverflowNat op w := by
  cases op <;> simp only [divOverflow, hc, freeDivOverflowNat]

theorem divOverflow_sdiv_wrap {w : Nat} {c : Config} (a : BitVec w) (hc : c.divOverflow = .wrap) :
    divOverflow c .sdiv a = a := by
  simp only [divOverflow, hc]

theorem divOverflow_smod_wrap {w : Nat} {c : Config} (a : BitVec w) (hc : c.divOverflow = .wrap) :
    divOverflow c .smod a = 0 := by
  simp only [divOverflow, hc]

/-- Settles O25: the function is the free value; under `wrap` the quotient is the dividend again. -/
theorem signedDivisionOverflowCompletes : Obligations.SignedDivisionOverflowCompletes := by
  refine ⟨freeDivOverflowNat, fun s rd rs1 rs2 ha hb => ?_⟩
  have ho := (s.divOverflows_src rs1 rs2).mpr ⟨ha, hb⟩
  have hquot := divResult_overflow s.cfg ho (.inl rfl)
  have hrem := divResult_overflow s.cfg ho (.inr rfl)
  refine ⟨fun hc => ⟨.of_divResult .sdiv rd ?sdivAny, .of_divResult .smod rd ?smodAny⟩,
    fun hc => ⟨.of_divResult .sdiv rd ?sdivWrap, .of_divResult .smod rd ?smodWrap⟩⟩
  case sdivAny => rw [hquot, divOverflow_any_toNat _ _ hc]
  case smodAny => rw [hrem, divOverflow_any_toNat _ _ hc]
  case sdivWrap => rw [hquot, divOverflow_sdiv_wrap _ hc, State.src_toNat]
  case smodWrap => rw [hrem, divOverflow_smod_wrap _ hc, BitVec.ofNat_eq_ofNat, BitVec.toNat_zero]

end Sys2Proof.Machine
end

section
/-! # The family of exceptions: the step, traps, the boundary, the environment, and User mode (60_exceptions.md)

A boundary is the timer's part, `timerTick`, and then at most one trap. `State.boundary_of_external`,
`State.boundary_of_contextSwitch` and `State.boundary_of_noTrap` say which by conditions on the state before the
boundary; the statements about boundaries read the fields of the state they name. What User mode can do comes from the cases of
`ExecEffect`; what it cannot see is that `exec` commutes with another choice of the CSRs of Kernel mode. -/

namespace Sys2Proof.Machine

/-! ## The step (60_exceptions.md R363) -/

theorem decodeBytes_of_decode {c : Config} {b0 b1 b2 b3 : Byte} {i : Instr} (rest : List Byte)
    (h : decode c (b0 ++ b1 ++ b2 ++ b3) = .ok i) : decodeBytes c (b0 :: b1 :: b2 :: b3 :: rest) = .ok (i, rest) := by
  simp [decodeBytes, h]

/-- Settles O6: the fetch reads the word, the decoder answers the instruction, and the step is by the instruction's
outcome. -/
theorem stepRunsDecodedInstruction : Obligations.StepRunsDecodedInstruction := by
  intro s i hvalid hpc hplain hdecode
  rw [← State.ip_extractLsb] at hpc
  have hbytes := decodeBytes_of_decode [] hdecode
  rw [step, if_neg (by simp [hvalid]), if_neg (not_not.mpr hpc), State.fetchBytes_plain hplain]
  cases hexec : exec i s <;> simp only [hbytes, hexec]

/-! ## Trap entry and return (60_exceptions.md R342, R343, R353) -/

/-- Settles O49: the trap entry writes three CSRs and `pc`. -/
theorem trapEntrySequence : Obligations.TrapEntrySequence := by
  intro s c ret
  refine ⟨s.toNat_setWidth64 ret, rfl, rfl, ?pc, fun n h1 h2 h6 => s.csr_takeTrap c ret h1 h2 h6,
    fun r => State.reg_congr rfl r, ?platform, rfl, rfl⟩
  case pc => cases c <;> exact s.toNat_narrowed _
  case platform => simp [SamePlatform]

theorem exec_sysret_kernel {s : State} (hk : s.kernel = true) (hm : s.spvg = 0 ∨ s.spvg = 2) :
    exec .sysret s = .next s.trapReturn := by
  have hlegal : ¬ (s.spvg ≠ 0 ∧ s.spvg ≠ 2) := fun ⟨h0, h2⟩ => hm.elim h0 h2
  simp only [exec, execSysret, hk, if_true, if_neg hlegal]

/-- The return writes no CSR but `pvg`. -/
theorem State.csr_trapReturn (s : State) {n : Nat} (h1 : n ≠ 1) : s.trapReturn.csr n = s.csr n := by
  rw [State.trapReturn_eq_setCsr, State.csr_setPc, State.csr_setCsr, if_neg fun h => h1 h.1]

/-- Settles O38: SYSRET in Kernel mode is the return from a trap. -/
theorem sysretReturns : Obligations.SysretReturns := by
  intro s hmode hm
  refine ⟨s.trapReturn, exec_sysret_kernel (s.kernel_iff.mpr hmode) hm, s.toNat_narrowed s.iraddr, rfl,
    fun n h1 => s.csr_trapReturn h1, fun r => State.reg_congr rfl r, ?platform, fun a => rfl, rfl⟩
  case platform => simp [SamePlatform]

/-! ## What a boundary does, by the state before it (60_exceptions.md R346, R350, R351) -/

theorem State.ei_iff (s : State) : s.ei = true ↔ s.msr.toNat % 2 = 1 := by
  rw [State.ei, BitVec.getLsbD, Nat.testBit_zero, decide_eq_true_iff]

theorem State.ei_eq_false_iff (s : State) : s.ei = false ↔ s.msr.toNat % 2 = 0 := by
  rw [← Bool.not_eq_true, State.ei_iff]
  omega

@[simp] theorem State.timerTick_ei (s : State) (i : EnvInput) : (s.timerTick i).ei = s.ei := by
  simp [State.ei]

theorem State.timerTick_absent {s : State} (h : s.cfg.pcsTimer = .absent) (i : EnvInput) : s.timerTick i = s := by
  simp [State.timerTick, h]

theorem State.timerWants_absent {s : State} (h : s.cfg.pcsTimer = .absent) : s.timerWants = false := by
  simp [State.timerWants, h]

/-- The request of `countdown` is gated by `msr` bit 0. -/
theorem State.timerTick_wants_countdown {s : State} (h : s.cfg.pcsTimer = .countdown) (i : EnvInput) :
    (s.timerTick i).timerWants = (s.timerDueNow i && s.ei) := by
  simp [State.timerWants, h, State.timerTick_timerDue]

/-- The request of the platform's timer has no gate. -/
theorem State.timerTick_wants_platform {s : State} (h : s.cfg.pcsTimer = .platform) (i : EnvInput) :
    (s.timerTick i).timerWants = s.timerDueNow i := by
  simp [State.timerWants, h, State.timerTick_timerDue]

theorem State.timerDueNow_countdown {s : State} (h : s.cfg.pcsTimer = .countdown) (i : EnvInput) :
    s.timerDueNow i = (s.timerDue || decide (s.pcst.toNat = 0)) := by
  simp [State.timerDueNow, h]

theorem State.timerDueNow_platform {s : State} (h : s.cfg.pcsTimer = .platform) (i : EnvInput) :
    s.timerDueNow i = (s.timerDue || i.timerRequest) := by
  simp [State.timerDueNow, h]

section
variable {s : State} {i : EnvInput}

theorem State.boundary_of_noSystem (a : Word64) (hs : s.cfg.extS = false) : s.boundary a i = s := by
  simp [State.boundary, hs]

theorem State.boundary_of_external {cause : Word64} (a : Word64) (hs : s.cfg.extS = true) (he : s.ei = true)
    (hirq : s.irq = some cause) : s.boundary a i = (s.timerTick i).takeExternal a cause := by
  simp [State.boundary, State.takeAsync, hs, he, hirq]

/-- Where no external interrupt is both enabled and pending, the timer alone decides. -/
theorem State.boundary_of_noExternal (a : Word64) (hs : s.cfg.extS = true) (hq : s.ei = false ∨ s.irq = none) :
    s.boundary a i =
      if (s.timerTick i).timerWants then (s.timerTick i).takeContextSwitch a else s.timerTick i := by
  rcases hq with he | hirq
  · simp [State.boundary, State.takeAsync, hs, he]
  · simp [State.boundary, State.takeAsync, hs, hirq]

theorem State.boundary_of_contextSwitch (a : Word64) (hs : s.cfg.extS = true) (hq : s.ei = false ∨ s.irq = none)
    (hw : (s.timerTick i).timerWants = true) : s.boundary a i = (s.timerTick i).takeContextSwitch a := by
  rw [State.boundary_of_noExternal a hs hq, if_pos hw]

theorem State.boundary_of_noTrap (a : Word64) (hs : s.cfg.extS = true) (hq : s.ei = false ∨ s.irq = none)
    (hw : (s.timerTick i).timerWants = false) : s.boundary a i = s.timerTick i := by
  rw [State.boundary_of_noExternal a hs hq, if_neg (by simp [hw])]

/-- The timer's part of a boundary alone writes `pcst`. -/
theorem State.boundary_pcst_toNat (a : Word64) (hs : s.cfg.extS = true) :
    (s.boundary a i).pcst.toNat = s.timerValue i := by
  rw [State.boundary, if_pos hs, State.takeAsync_pcst, State.timerTick_pcst_toNat]

/-- Only the external interrupt writes `eic` and consumes the request. -/
theorem State.boundary_eic_irq_of_noExternal (a : Word64) (hs : s.cfg.extS = true)
    (hq : s.ei = false ∨ s.irq = none) : (s.boundary a i).eic = s.eic ∧ (s.boundary a i).irq = s.irq := by
  rw [State.boundary_of_noExternal a hs hq]
  split <;> simp

/-- The process context switch interrupt is entered and its request served. -/
theorem State.boundary_contextSwitch_taken (a : Word64) (hs : s.cfg.extS = true) (hq : s.ei = false ∨ s.irq = none)
    (hw : (s.timerTick i).timerWants = true) :
    (s.boundary a i).timerDue = false ∧ TrapEntered s (s.boundary a i) a s.pcsaddr := by
  rw [State.boundary_of_contextSwitch a hs hq hw, ← s.timerTick_pcsaddr i]
  exact ⟨rfl, .of_timerTick ((s.timerTick i).takeContextSwitch_entered a)⟩

/-- Where no trap is taken, a request that is due stays due, and the program goes on. -/
theorem State.boundary_noTrap_taken (a : Word64) (hs : s.cfg.extS = true) (hq : s.ei = false ∨ s.irq = none)
    (hw : (s.timerTick i).timerWants = false) :
    (s.boundary a i).timerDue = s.timerDueNow i ∧ (s.boundary a i).pc = s.pc ∧ (s.boundary a i).pvg = s.pvg ∧
      (s.boundary a i).spvg = s.spvg ∧ (s.boundary a i).iraddr = s.iraddr := by
  rw [State.boundary_of_noTrap a hs hq hw]
  exact ⟨s.timerTick_timerDue i, by simp, by simp, by simp, by simp⟩

end

/-- Settles O50: the external interrupt is taken from the state that the timer leaves. -/
theorem externalInterruptIsTaken : Obligations.ExternalInterruptIsTaken := by
  intro s a cause i hs hmsr hirq
  have htaken := State.boundary_of_external (i := i) a hs (s.ei_iff.mpr hmsr) hirq
  refine ⟨?eic, ?irq, ?entered, State.boundary_pcst_toNat a hs, ?due, s.boundary_frame a i⟩
  case eic => rw [htaken, State.takeExternal_eic, Config.fit_toNat, State.timerTick_cfg]
  case irq => rw [htaken, State.takeExternal_irq]
  case entered =>
    rw [htaken, ← s.timerTick_eivba i]
    exact .of_timerTick ((s.timerTick i).takeExternal_entered a cause)
  case due => rw [htaken, State.takeExternal_timerDue, State.timerTick_timerDue]

/-- Settles O53: the external interrupt is taken, and the timer's request is as the timer left it. -/
theorem externalInterruptBeforeTimer : Obligations.ExternalInterruptBeforeTimer := by
  intro s a cause i hs _ hmsr hirq hdue
  obtain ⟨-, hnone, hentered, -, hkept, -⟩ := externalInterruptIsTaken s a cause i hs hmsr hirq
  exact ⟨hentered, hnone, hkept.trans hdue⟩

/-- Settles O51: without the System extension there is no boundary; without a timer and an enabled request there is
nothing to take. -/
theorem quietBoundaryChangesNothing : Obligations.QuietBoundaryChangesNothing := by
  intro s a i hquiet
  cases hs : s.cfg.extS with
  | false => exact State.boundary_of_noSystem a hs
  | true =>
    obtain ⟨htimer, hq⟩ := hquiet.resolve_left (by simp [hs])
    rw [← State.ei_eq_false_iff] at hq
    have htick := State.timerTick_absent htimer i
    rw [State.boundary_of_noTrap a hs hq (by rw [htick, State.timerWants_absent htimer]), htick]

/-- Settles O52: for each timer, what it leaves in `pcst`, and whether its request is taken. -/
theorem contextSwitchTimer : Obligations.ContextSwitchTimer := by
  intro s a i hs hq
  rw [← State.ei_eq_false_iff] at hq
  have hpcst := State.boundary_pcst_toNat (i := i) a hs
  obtain ⟨heic, hirq⟩ := State.boundary_eic_irq_of_noExternal (i := i) a hs hq
  have hframe := s.boundary_frame a i
  refine ⟨fun ht => ⟨fun h0 => ?decreased, fun h0 => ?reloaded, ⟨heic, hirq, hframe⟩, fun hmsr hdue => ?taken,
    fun hnot => ?notTaken⟩, fun ht => ⟨fun hv => ?kept, fun v hv => ?replaced, ⟨heic, hirq, hframe⟩,
    fun hdue => ?platformTaken, fun hdue hreq => ?platformNotTaken⟩⟩
  case decreased => simp [hpcst, State.timerValue, ht, h0]
  case reloaded => exact BitVec.eq_of_toNat_eq (by simp [hpcst, State.timerValue, ht, h0])
  case taken =>
    refine State.boundary_contextSwitch_taken a hs hq ?_
    simp [State.timerTick_wants_countdown ht, State.timerDueNow_countdown ht, s.ei_iff.mpr hmsr, hdue]
  case notTaken =>
    refine State.boundary_noTrap_taken a hs hq ?_
    rw [State.timerTick_wants_countdown ht, State.timerDueNow_countdown ht]
    rcases hnot with hmsr | ⟨hdue, h0⟩
    · simp [s.ei_eq_false_iff.mpr hmsr]
    · simp [hdue, h0]
  case kept => exact BitVec.eq_of_toNat_eq (by simp [hpcst, State.timerValue, ht, hv])
  case replaced => simp [hpcst, State.timerValue, ht, hv]
  case platformTaken =>
    refine State.boundary_contextSwitch_taken a hs hq ?_
    simp [State.timerTick_wants_platform ht, State.timerDueNow_platform ht, hdue]
  case platformNotTaken =>
    refine State.boundary_noTrap_taken a hs hq ?_
    simp [State.timerTick_wants_platform ht, State.timerDueNow_platform ht, hdue, hreq]

/-! ## The environment (60_exceptions.md R363 (6)) -/

theorem State.input_of_cons {s : State} {i : EnvInput} {rest : List EnvInput} (h : s.inputs = i :: rest) :
    s.input = i := by
  simp [State.input, h]

/-- After the boundary the environment changes no CSR. -/
theorem State.finishStep_sameCsrs (s : State) (a : Word64) : SameCsrs (s.boundary a s.input) (s.finishStep a) := by
  simp [SameCsrs]

/-- Settles O54: each field of `finishStep`, the pokes by `writeCells_read_other`. -/
theorem environmentPartOfAStep : Obligations.EnvironmentPartOfAStep := by
  intro s a i rest hinputs
  obtain rfl := State.input_of_cons hinputs
  refine ⟨?inputs, ?irq, fun x hx => ?memory, fun r => State.reg_congr (s.finishStep_regs a) r,
    s.finishStep_sameCsrs a, s.finishStep_pc a, s.finishStep_timerDue a, s.finishStep_events a, s.finishStep_cfg a⟩
  case inputs => rw [State.finishStep_inputs, hinputs, List.tail_cons]
  case irq =>
    rw [State.finishStep_irq]
    cases s.input.irq <;> rfl
  case memory =>
    rw [State.finishStep_mem, State.applyPokes_mem]
    exact s.writeCells_read_other _ x hx

/-! ## What User mode cannot change (60_exceptions.md R357) -/

/-- In User mode SYSRET and CSRW write nothing, and no other instruction but SYSCALL writes a CSR. -/
theorem exec_user_sameCsrs {i : Instr} {s t : State} (hk : s.kernel = false) (hi : i ≠ .syscall)
    (he : exec i s = .next t) : SameCsrs s t := by
  cases exec_effect he with
  | systemCall h => exact absurd h hi
  | systemReturn _ hkernel _ => simp [hk] at hkernel
  | csrWrite _ _ _ hkernel _ => simp [hk] at hkernel
  | writes | jumps | loads | stores => simp [SameCsrs]

/-- Settles O45: the cases of an instruction that completes, those of Kernel mode excluded. -/
theorem userModeCannotChangeCsrs : Obligations.UserModeCannotChangeCsrs := by
  intro s t i hmode hi he
  exact exec_user_sameCsrs (s.kernel_eq_false_iff.mpr hmode) hi he

/-! ## How User mode is left (60_exceptions.md R340, R346, R350, R356) -/

theorem exec_syscall_next {s t : State} (he : exec .syscall s = .next t) : t = s.takeTrap .systemCall s.seqPc :=
  (Host.Outcome.next.inj he).symm

/-- In User mode even SYSCALL leaves alone the CSRs other than `pvg`, `spvg` and `iraddr`. -/
theorem exec_user_csr {i : Instr} {s t : State} (hk : s.kernel = false) (he : exec i s = .next t) {n : Nat}
    (h1 : n ≠ 1) (h2 : n ≠ 2) (h6 : n ≠ 6) : t.csr n = s.csr n := by
  by_cases hi : i = .syscall
  · subst hi
    rw [exec_syscall_next he]
    exact s.csr_takeTrap _ _ h1 h2 h6
  · exact (exec_user_sameCsrs hk hi he).csr n

theorem exec_irq {i : Instr} {s t : State} (he : exec i s = .next t) : t.irq = s.irq := by
  cases exec_effect he <;> simp

/-- The instruction that leaves User mode is SYSCALL, to the address in `scvaddr`. -/
theorem exec_leaves_user {i : Instr} {s t : State} (hmode : s.pvg.toNat < 2) (he : exec i s = .next t)
    (ht : 2 ≤ t.pvg.toNat) : i = .syscall ∧ t.pc.toNat = s.scvaddr.toNat % 2 ^ s.opWidth := by
  by_cases hi : i = .syscall
  · subst hi
    rw [exec_syscall_next he]
    exact ⟨rfl, s.toNat_narrowed s.scvaddr⟩
  · obtain ⟨-, hpvg, -⟩ := exec_user_sameCsrs (s.kernel_eq_false_iff.mpr hmode) hi he
    rw [hpvg] at ht
    omega

/-- A boundary goes to `eivba` by an external interrupt that is pending and enabled, goes to `pcsaddr` where there is a
timer, or leaves `pc` and the mode alone. -/
theorem State.boundary_goes (s : State) (a : Word64) (i : EnvInput) :
    (s.ei = true ∧ s.irq.isSome = true ∧ (s.boundary a i).pc.toNat = s.eivba.toNat % 2 ^ s.opWidth) ∨
      (s.cfg.pcsTimer ≠ .absent ∧ (s.boundary a i).pc.toNat = s.pcsaddr.toNat % 2 ^ s.opWidth) ∨
      ((s.boundary a i).pc = s.pc ∧ (s.boundary a i).pvg = s.pvg) := by
  cases hs : s.cfg.extS with
  | false => simp [State.boundary_of_noSystem a hs]
  | true =>
    rcases (s.timerTick i).takeAsync_cases a with ⟨cause, he, hirq, -⟩ | ⟨hq, hw, -⟩ | ⟨hq, hw, -⟩
    all_goals simp only [State.timerTick_ei, State.timerTick_irq] at *
    · obtain ⟨-, -, ⟨-, -, -, hpc⟩, -⟩ := externalInterruptIsTaken s a cause i hs (s.ei_iff.mp he) hirq
      exact .inl ⟨he, by simp [hirq], hpc⟩
    · obtain ⟨-, -, -, -, hpc⟩ := State.boundary_contextSwitch_taken a hs hq hw
      refine .inr (.inl ⟨fun habsent => ?_, hpc⟩)
      rw [State.timerTick_absent habsent, State.timerWants_absent habsent] at hw
      cases hw
    · obtain ⟨-, hpc, hpvg, -⟩ := State.boundary_noTrap_taken a hs hq hw
      exact .inr (.inr ⟨hpc, hpvg⟩)

/-- Settles O46: the instruction leaves User mode through `scvaddr`, or the boundary after it goes through `eivba` or
`pcsaddr`, which the instruction has left alone. -/
theorem userModeIsLeftThroughTheVector : Obligations.UserModeIsLeftThroughTheVector := by
  refine ⟨fun s t i hmode he ht => exec_leaves_user hmode he ht, fun s t hmode hstep ht => ?_⟩
  obtain ⟨_, i, _, u, -, -, -, -, hexec, rfl⟩ := step_next hstep
  have hcsr := fun n => exec_user_csr (s.kernel_eq_false_iff.mpr hmode) hexec (n := n)
  have hmsr : u.msr = s.msr := Option.some.inj (hcsr 0 (by decide) (by decide) (by decide))
  have heivba : u.eivba = s.eivba := Option.some.inj (hcsr 3 (by decide) (by decide) (by decide))
  have hpcsaddr : u.pcsaddr = s.pcsaddr := Option.some.inj (hcsr 7 (by decide) (by decide) (by decide))
  have hwidth : u.opWidth = s.opWidth := State.opWidth_congr (exec_cfg hexec) hmsr
  have hgoes := u.boundary_goes s.ip u.input
  rw [State.ei_iff, exec_irq hexec, exec_cfg hexec, hmsr, heivba, hpcsaddr, hwidth] at hgoes
  rw [State.finishStep_pvg] at ht
  rw [State.finishStep_pc]
  rcases hgoes with hexternal | htimer | ⟨hpc, hpvg⟩
  · exact .inr (.inl hexternal)
  · exact .inr (.inr htimer)
  · rw [hpvg] at ht
    rw [hpc]
    exact .inl (exec_leaves_user hmode hexec ht).2

/-! ## What User mode cannot see (60_exceptions.md R357; 45_system.md R258)

The operating width, the operands and the addresses are read from fields that `withKernelCsrs` does not write, so each
unfolds to the same term in both states, and the equations below are stated without a cast. -/

/-- The answer, with other contents of the CSRs of Kernel mode in the state it leaves. -/
def withKernelCsrsAfter (k : KernelCsrs) : Result → Result
  | .next t => .next (t.withKernelCsrs k)
  | .fault f => .fault f
  | .refused r => .refused r

section
variable (s : State) (k : KernelCsrs)

theorem State.setHalves_withKernelCsrs (rd : RegNum) (hi lo : BitVec 32) :
    (s.withKernelCsrs k).setHalves rd hi lo = (s.setHalves rd hi lo).withKernelCsrs k := by
  unfold State.setHalves
  split <;> rfl

theorem State.setReg_withKernelCsrs (rd : RegNum) (v : Word64) :
    (s.withKernelCsrs k).setReg rd v = (s.setReg rd v).withKernelCsrs k := by
  have hcfg : (s.withKernelCsrs k).cfg = s.cfg := rfl
  rw [State.setReg, State.setReg, hcfg]
  cases s.cfg.xlen <;> exact s.setHalves_withKernelCsrs k rd _ _

theorem State.writeW_of_narrow {s : State} (h : s.narrow = true) (i : Instr) (rd : RegNum) (v : BitVec s.opWidth) :
    s.writeW i rd v =
      { s.setHalves rd (s.upperHalf i (s.reg rd) (v.setWidth 32)) (v.setWidth 32) with draws := s.draws + 1 } :=
  if_pos h

theorem State.writeW_of_wide {s : State} (h : s.narrow = false) (i : Instr) (rd : RegNum) (v : BitVec s.opWidth) :
    s.writeW i rd v = s.setReg rd (v.setWidth 64) :=
  if_neg (by simp [h])

theorem State.writeW_withKernelCsrs (i : Instr) (rd : RegNum) (v : BitVec s.opWidth) :
    (s.withKernelCsrs k).writeW i rd v = (s.writeW i rd v).withKernelCsrs k := by
  cases hn : s.narrow with
  | true =>
    rw [State.writeW_of_narrow hn]
    refine (State.writeW_of_narrow (s := s.withKernelCsrs k) hn i rd v).trans ?_
    rw [State.setHalves_withKernelCsrs]
    rfl
  | false =>
    rw [State.writeW_of_wide hn]
    exact (State.writeW_of_wide (s := s.withKernelCsrs k) hn i rd v).trans (s.setReg_withKernelCsrs k rd _)

theorem State.noteAccess_withKernelCsrs (isWrite : Bool) (addr n : Nat) (cells : List Host.Cell) :
    (s.withKernelCsrs k).noteAccess isWrite addr n cells = (s.noteAccess isWrite addr n cells).withKernelCsrs k := by
  have hbytes : (s.withKernelCsrs k).deviceBytes cells = s.deviceBytes cells := rfl
  rw [State.noteAccess, State.noteAccess, hbytes]
  cases s.deviceBytes cells <;> rfl

/-- The write of `pc` at the end of an instruction keeps the correspondence. -/
theorem next_setPc_withKernelCsrs {t u : State} (h : t = u.withKernelCsrs k) {w : Nat} (pc : BitVec w) :
    (Host.Outcome.next (t.setPc pc) : Result) = withKernelCsrsAfter k (.next (u.setPc pc)) := by
  rw [h]
  rfl

theorem State.retire_withKernelCsrs (i : Instr) (rd : RegNum) (v : BitVec s.opWidth) :
    (s.withKernelCsrs k).retire i rd v = withKernelCsrsAfter k (s.retire i rd v) :=
  next_setPc_withKernelCsrs k (s.writeW_withKernelCsrs k i rd v) s.seqPc

theorem State.jumpLink_withKernelCsrs (i : Instr) (rd : RegNum) (target : BitVec s.opWidth) :
    (s.withKernelCsrs k).jumpLink i rd target = withKernelCsrsAfter k (s.jumpLink i rd target) :=
  next_setPc_withKernelCsrs k (s.writeW_withKernelCsrs k i rd s.seqPc) target

theorem State.load_withKernelCsrs (addr n : Nat) :
    (s.withKernelCsrs k).load addr n = (s.load addr n).map fun p => (p.1, p.2.withKernelCsrs k) := by
  have hreadable : (s.withKernelCsrs k).readable addr n = s.readable addr n := rfl
  rw [State.load, State.load, hreadable]
  split
  · exact congrArg (fun t => Except.ok (_, t)) (s.noteAccess_withKernelCsrs k _ _ _ _)
  · rfl

theorem State.store_withKernelCsrs (addr n : Nat) (v : BitVec (8 * n)) :
    (s.withKernelCsrs k).store addr n v = (s.store addr n v).map fun t => t.withKernelCsrs k := by
  have hwritable : (s.withKernelCsrs k).writable addr n = s.writable addr n := rfl
  rw [State.store, State.store, hwritable]
  split
  · exact congrArg Except.ok ((s.writeCells _).noteAccess_withKernelCsrs k _ _ _ _)
  · rfl

theorem State.loadTo_withKernelCsrs (rd rs1 : RegNum) (imm : Imm12) (n : Nat) (ext : BitVec (8 * n) → Word64) :
    (s.withKernelCsrs k).loadTo rd rs1 imm n ext = withKernelCsrsAfter k (s.loadTo rd rs1 imm n ext) := by
  have haddr : (s.withKernelCsrs k).accessAddr rs1 imm n = s.accessAddr rs1 imm n := rfl
  rw [State.loadTo, State.loadTo, haddr, State.load_withKernelCsrs]
  cases s.load (s.accessAddr rs1 imm n) n with
  | error f => rfl
  | ok p => exact next_setPc_withKernelCsrs k (p.2.setReg_withKernelCsrs k rd (ext p.1)) s.seqPc

theorem State.storeFrom_withKernelCsrs (rs1 rs2 : RegNum) (imm : Imm12) (n : Nat) :
    (s.withKernelCsrs k).storeFrom rs1 rs2 imm n = withKernelCsrsAfter k (s.storeFrom rs1 rs2 imm n) := by
  have haddr : (s.withKernelCsrs k).accessAddr rs1 imm n = s.accessAddr rs1 imm n := rfl
  have hdata : (s.withKernelCsrs k).storeData rs2 n = s.storeData rs2 n := rfl
  rw [State.storeFrom, State.storeFrom, haddr, hdata, State.store_withKernelCsrs]
  cases s.store (s.accessAddr rs1 imm n) n (s.storeData rs2 n) with
  | error f => rfl
  | ok t => exact next_setPc_withKernelCsrs k rfl s.seqPc

/-- In User mode every instruction but SYSCALL does the same with other contents of the CSRs of Kernel mode. -/
theorem exec_withKernelCsrs {s : State} (k : KernelCsrs) {i : Instr} (hk : s.kernel = false) (hi : i ≠ .syscall) :
    exec i (s.withKernelCsrs k) = withKernelCsrsAfter k (exec i s) := by
  have hk' : (s.withKernelCsrs k).kernel = false := hk
  cases i
  case syscall => exact absurd rfl hi
  case sysret => rw [exec_sysret_user hk, exec_sysret_user hk', withKernelCsrsAfter]
  case csrw rs1 n =>
    rw [exec_csrw_user rs1 n hk, exec_csrw_user rs1 n hk']
    rfl
  case csrr rd n =>
    rw [exec_csrr_user rd n hk, exec_csrr_user rd n hk']
    exact s.retire_withKernelCsrs k _ rd 0
  case ldb | ldw | ldd | ldq | ldsb | ldsw | ldsd => exact s.loadTo_withKernelCsrs k _ _ _ _ _
  case stb | stw | std | stq => exact s.storeFrom_withKernelCsrs k _ _ _ _
  case jal | jalr => exact s.jumpLink_withKernelCsrs k _ _ _
  case jeq | jlt | jslt | jne | jge | jsge => rfl
  all_goals exact s.retire_withKernelCsrs k _ _ _

end

/-- Settles O47: the instruction commutes with another choice of the CSRs of Kernel mode. -/
theorem userModeCannotReadKernelCsrs : Obligations.UserModeCannotReadKernelCsrs := by
  intro s k i hmode hi
  have hexec := exec_withKernelCsrs k (s.kernel_eq_false_iff.mpr hmode) hi
  refine ⟨fun t ht => ?next, fun f hf => ?fault⟩
  case next => rw [hexec, ht, withKernelCsrsAfter]
  case fault => rw [hexec, hf, withKernelCsrsAfter]

end Sys2Proof.Machine
end
